-- ==== Sys2Proof/Word.lean ====
section
/-! DEFINITION. The widths of the engine's values (spec/00_scope.md R10, R11: every value is unsigned). -/

namespace Sys2Proof

/-- One octet of a frame (00_scope.md R12). -/
abbrev Byte := BitVec 8

/-- A 16-bit field: a checksum, a length, an identification. -/
abbrev Half := BitVec 16

/-- A 32-bit register, command word, address or mask. -/
abbrev Word := BitVec 32

end Sys2Proof
end

