-- ==== Sys2Proof/Config.lean ====
section
/-! DEFINITION. What one instance of the engine fixes (spec/00_scope.md R9) and the free values the spec leaves open. -/

namespace Sys2Proof

/-- The implementation parameters of 00_scope.md R9. A state carries the parameters of its instance and no step writes
them, so a statement about every state is a statement about every instance (log entry 1). -/
structure Params where
  /-- `P_DEPTH_EXTRA`: extra trie levels an insertion walks (R123). -/
  depthExtra : Fin 2
  /-- `P_ROUTE_CAP`: capacity of the route store. -/
  routeCap : Nat
  /-- `P_NODE_CAP`: capacity of the node store, the root included. -/
  nodeCap : Nat
  /-- `P_NIF`: number of interfaces. -/
  nif : Nat
  /-- `P_ERR_IP_ID`: identification of synthesized ICMP error frames. -/
  errIpId : Half
  /-- `P_BASE`: base address of the window on the host bus. -/
  base : Nat
deriving DecidableEq, Repr

/-- The spec defaults of R9. `P_BASE` is OPEN there: DESIGN CHOICE 0 (log entry 2). -/
def Params.specDefault : Params where
  depthExtra := 1
  routeCap := 65536
  nodeCap := 2162689
  nif := 4
  errIpId := 0x0001#16
  base := 0

/-- FREE VALUE: the `n`-th byte drawn by a host read whose value the spec leaves unspecified (20_memory.md R63,
70_reset_and_hazards.md R281, R282). It has no body, so nothing can be proved of its value (log entry 7). -/
opaque Config.freeByte : Nat → Byte

end Sys2Proof
end

