-- ==== Sys2Proof/Machine/State.lean ====
section
/-! DEFINITION. The engine's state (spec/10_state.md R20), its value after reset (70_reset_and_hazards.md R271), and the
reasons a step can stop. -/

namespace Sys2Proof.Machine

/-- The error codes of STATUS.ERRCODE (60_exceptions.md R232). The codes 0x08–0xFF are never reported, so they have no
constructor. -/
inductive ErrorCode where
  | none
  | illegal
  | badIf
  | range
  | shortFrame
  | badTotlen
  | routeFull
  | nodeFull
deriving DecidableEq, Repr

/-- The stored fields of STATUS (10_state.md R24). BUSY is not stored: it is `pending` or `resetting` (R48). -/
structure Status where
  done : Bool
  err : Bool
  found : Bool
  ovr : Bool
  errCode : ErrorCode
deriving DecidableEq, Repr

/-- STATUS after reset: every field 0. -/
def Status.zero : Status where
  done := false
  err := false
  found := false
  ovr := false
  errCode := .none

/-- One entry of the interface table (10_state.md R40). -/
structure IfEntry where
  ip : Word
  macLo : Word
  macHi : Half
deriving DecidableEq, Repr

/-- An interface entry after reset. -/
def IfEntry.zero : IfEntry where
  ip := 0#32
  macLo := 0#32
  macHi := 0#16

/-- One route of the route store (10_state.md R42), raw values as given to LPM_INSERT. -/
structure RouteEntry where
  pfx : Word
  mask : Word
  nextHop : Word
  egressIf : Byte
deriving DecidableEq, Repr

/-- One node of the node store (10_state.md R44); `none` is NONE. -/
structure Node where
  child0 : Option Nat
  child1 : Option Nat
  route : Option Nat
deriving DecidableEq, Repr

/-- A node as it is created: both children and the route NONE (R44). -/
def Node.empty : Node where
  child0 := none
  child1 := none
  route := none

/-- Frame memory: the bytes written since the last reset, addresses strictly rising. A byte that is not listed has no
value (20_memory.md R63). -/
abbrev Memory := List Host.Cell

/-- The width of a host access (20_memory.md R65). -/
inductive Width where
  | one
  | two
  | four
deriving DecidableEq, Repr

/-- One host access at a bus address (20_memory.md R65; the window lies at `P_BASE`, R61). -/
inductive Access where
  | read (addr : Nat) (width : Width)
  | write (addr : Nat) (width : Width) (value : Word)
deriving DecidableEq, Repr

/-- What the OKAY response to a completed access carries (20_memory.md R65). A bus-error response is a fault (R68). -/
inductive Response where
  | written
  | value (v : Word)
deriving DecidableEq, Repr

/-- One move from outside the engine, or a turn given to the sequencer. A list of them says in which order host and
sequencer act (20_memory.md R75, 70_reset_and_hazards.md R285; log entry 4). -/
inductive Input where
  /-- The host performs one bus access. -/
  | access (a : Access)
  /-- `WAIT` (30_encoding.md R102): the host reads STATUS until BUSY is 0. -/
  | wait
  /-- The sequencer's turn: it ends a reset, performs the pending command, or idles. -/
  | engine
  /-- The platform asserts `rst` (70_reset_and_hazards.md R271). -/
  | rstAssert
  /-- The platform deasserts `rst` (R273). -/
  | rstDeassert
deriving DecidableEq, Repr

/-- A host register of the register area (10_state.md section 2). -/
inductive Reg where
  | id
  | ctrl
  | status
  | cmd
  | arg0
  | arg1
  | arg2
  | arg3
  | res0
  | res1
  | res2
  | res3
  | rxLen
  | txLen
  | txIf
  | routeCount
  | nodeCount
  | cfg
  | routeCap
  | nodeCap
  | ifIp (k : Nat)
  | ifMacLo (k : Nat)
  | ifMacHi (k : Nat)
deriving DecidableEq, Repr

/-- Why the machine stops with a fault. Each is one the spec asks a model to raise; all are safe: no false claim about
the hardware can be proved through a stop. -/
inductive Fault where
  /-- Raised by a command that reads a byte of frame memory that has no value (20_memory.md R63). Safe. -/
  | unwrittenByte (addr : Nat)
  /-- Raised by a host access of an illegal width or alignment (20_memory.md R66–R68): the engine's state is unchanged
  and the access is a fault of the host. Safe. -/
  | busError (addr : Nat)
  /-- Raised by every step of a run whose hazard mark is set (10_state.md R50, 70_reset_and_hazards.md R282). Safe. -/
  | hazard
deriving DecidableEq, Repr

/-- Why a step has no meaning. -/
inductive Refusal where
  /-- Raised by an arm of `exec` whose instruction has no meaning yet. No arm of this model raises it. Safe. -/
  | notModelled (mnemonic : String)
  /-- Raised by a host access outside the engine's window: "The platform decides what lies outside the window"
  (20_memory.md R61; log entry 3). Safe. -/
  | outsideWindow (addr : Nat)
deriving DecidableEq, Repr

/-- The engine's state. -/
structure State where
  /-- The instance's parameters (00_scope.md R9); no step writes them. -/
  params : Params
  /-- CTRL.IRQ_EN (10_state.md R23). -/
  irqEn : Bool
  /-- STATUS (R24). -/
  status : Status
  /-- CMD (R29). -/
  cmd : Word
  /-- ARG0–ARG3 (R30). -/
  arg0 : Word
  arg1 : Word
  arg2 : Word
  arg3 : Word
  /-- RES0–RES3 (R31). -/
  res0 : Word
  res1 : Word
  res2 : Word
  res3 : Word
  /-- RX_LEN (R32). -/
  rxLen : Half
  /-- TX_LEN (R33). -/
  txLen : Half
  /-- TX_IF (R34). -/
  txIf : Byte
  /-- The interface table (R40), one entry for each k < P_NIF. -/
  iftab : List IfEntry
  /-- The route store (R42), in insertion order (R43). ROUTE_COUNT is its length (R35). -/
  routes : List RouteEntry
  /-- The node store (R44), in order of creation (R46). NODE_COUNT is its length (R36). -/
  nodes : List Node
  /-- Frame memory (20_memory.md R62, R63). -/
  fmem : Memory
  /-- An accepted command has not yet completed (R48). -/
  pending : Bool
  /-- A reset is in progress (R48). -/
  resetting : Bool
  /-- The level of the `rst` input (70_reset_and_hazards.md R270). -/
  rst : Bool
  /-- The sticky hazard mark (R50). -/
  hazard : Bool
  /-- The model's own: the moves yet to come (log entry 4). -/
  inputs : List Input
  /-- The model's own: the last response on the host bus (log entry 6). -/
  resp : Option Response
  /-- The model's own: how many free bytes have been drawn (log entry 7). -/
  draws : Nat
deriving DecidableEq, Repr

/-- The reset values of 70_reset_and_hazards.md R271 for an instance with the parameters `p`, once the reset has ended
(log entry 11). -/
def State.resetWith (p : Params) : State where
  params := p
  irqEn := false
  status := Status.zero
  cmd := 0#32
  arg0 := 0#32
  arg1 := 0#32
  arg2 := 0#32
  arg3 := 0#32
  res0 := 0#32
  res1 := 0#32
  res2 := 0#32
  res3 := 0#32
  rxLen := 0#16
  txLen := 0#16
  txIf := 0#8
  iftab := List.replicate p.nif IfEntry.zero
  routes := []
  nodes := [Node.empty]
  fmem := []
  pending := false
  resetting := false
  rst := false
  hazard := false
  inputs := []
  resp := none
  draws := 0

/-- The machine right after reset, with the spec's default parameters (00_scope.md R9). -/
def State.reset : State := State.resetWith Params.specDefault

end Sys2Proof.Machine
end

