-- ==== Sys2Proof/Machine/Flags.lean ====
section
/-! DEFINITION. STATUS: how its word is read, what completion sets, what a host write clears (spec/10_state.md R24,
60_exceptions.md R232, R236, R237, R240). -/

namespace Sys2Proof.Machine

/-- The number of an error code (60_exceptions.md R232). -/
def ErrorCode.code : ErrorCode → Byte
  | .none => 0x00#8
  | .illegal => 0x01#8
  | .badIf => 0x02#8
  | .range => 0x03#8
  | .shortFrame => 0x04#8
  | .badTotlen => 0x05#8
  | .routeFull => 0x06#8
  | .nodeFull => 0x07#8

/-- STATUS.BUSY: a command is pending or a reset is in progress (10_state.md R24, R48). -/
def State.busy (s : State) : Bool := s.pending || s.resetting

/-- `irq = STATUS.DONE ∧ CTRL.IRQ_EN` (60_exceptions.md R240). -/
def State.irq (s : State) : Bool := s.status.done && s.irqEn

/-- A register word whose bit `i` is `b`, every other bit 0. -/
def bitWord (b : Bool) (i : Nat) : Word := (BitVec.ofBool b).setWidth 32 <<< i

/-- The word a read of STATUS returns (10_state.md R24); reserved bits read 0. -/
def statusWord (s : State) : Word :=
  bitWord s.busy 0 ||| bitWord s.status.done 1 ||| bitWord s.status.err 2 ||| bitWord s.status.found 3 |||
    bitWord s.status.ovr 4 ||| s.status.errCode.code.setWidth 32 <<< 8

/-- A host write to STATUS: writing 1 clears DONE (bit 1) or OVR (bit 4), nothing else is written (10_state.md R24). -/
def Status.clearWritten (st : Status) (v : Word) : Status :=
  { st with done := st.done && !v.getLsbD 1, ovr := st.ovr && !v.getLsbD 4 }

/-- What acceptance of a command clears (10_state.md R29). -/
def Status.accepted (st : Status) : Status :=
  { st with done := false, err := false, found := false, errCode := .none }

/-- `complete_ok()` on STATUS: FOUND and OVR keep their values (60_exceptions.md R237). -/
def Status.completedOk (st : Status) : Status :=
  { st with done := true, err := false, errCode := .none }

/-- `complete_error(e)` on STATUS: OVR keeps its value (60_exceptions.md R236). -/
def Status.completedError (st : Status) (e : ErrorCode) : Status :=
  { st with done := true, err := true, found := false, errCode := e }

end Sys2Proof.Machine
end

