-- ==== Sys2Proof/Machine/Operands.lean ====
section
/-! DEFINITION. The operand forms: byte sequences and raw values (spec/00_scope.md R13, R14), key bits and mask lengths
(40_lpm_trie.md R120–R123), register operands (30_encoding.md R91) and the interface identity (10_state.md R40). -/

namespace Sys2Proof.Machine

/-- `be16(s)` as a number (00_scope.md R13). -/
def be16 (h l : Byte) : Nat := h.toNat * 256 + l.toNat

/-- `be16(s)` of a two-byte sequence. -/
def be16Seq (s : List Byte) : Nat := be16 (s.getD 0 0#8) (s.getD 1 0#8)

/-- `tobe16(x)`: the high byte first (00_scope.md R13). -/
def tobe16 (x : Half) : List Byte := [x.extractLsb' 8 8, x.extractLsb' 0 8]

/-- `wire(v)`: the four octets of a raw value, first on the wire first (00_scope.md R13). -/
def wire (v : Word) : List Byte :=
  [v.extractLsb' 0 8, v.extractLsb' 8 8, v.extractLsb' 16 8, v.extractLsb' 24 8]

/-- The number `Σ s[j]·2^(8j)` (00_scope.md R13's `raw`, 20_memory.md R67). -/
def leNat : List Byte → Nat
  | [] => 0
  | b :: bs => b.toNat + 256 * leNat bs

/-- `raw(s)` as a register value (00_scope.md R13, R14). -/
def raw (s : List Byte) : Word := BitVec.ofNat 32 (leNat s)

/-- `zext_32` of a 16-bit value (00_scope.md R13). -/
def zext32 (c : Half) : Word := c.setWidth 32

/-- `kbit(v, i) = v[i mod 32]` (40_lpm_trie.md R120): position 32 reads bit 0. -/
def kbit (v : Word) (i : Nat) : Bool := v.getLsbD (i % 32)

/-- R121's loop from position `l`, at most `fuel` positions further. -/
def mlenFrom (m : Word) (l : Nat) : Nat → Nat
  | 0 => l
  | fuel + 1 => if m.getLsbD l then mlenFrom m (l + 1) fuel else l

/-- `mlen(m)`: contiguous set bits from the low end (40_lpm_trie.md R121). -/
def mlen (m : Word) : Nat := mlenFrom m 0 32

/-- Insertion depth `D(m) = mlen(m) + P_DEPTH_EXTRA` (40_lpm_trie.md R123). -/
def depth (extra : Fin 2) (m : Word) : Nat := mlen m + extra.val

/-- The route LPM_INSERT is given: ARG0, ARG1, ARG2 whole and ARG3[7:0] (40_lpm_trie.md R124). -/
def argRoute (s : State) : RouteEntry where
  pfx := s.arg0
  mask := s.arg1
  nextHop := s.arg2
  egressIf := s.arg3.extractLsb' 0 8

/-- The interface entry a command's IFID names (10_state.md R41: read only for IFID < P_NIF). -/
def ifEntry (s : State) (k : Byte) : IfEntry := s.iftab.getD k.toNat IfEntry.zero

/-- `mac(k)` (10_state.md R40). -/
def mac (s : State) (k : Byte) : List Byte :=
  wire (ifEntry s k).macLo ++ [(ifEntry s k).macHi.extractLsb' 0 8, (ifEntry s k).macHi.extractLsb' 8 8]

/-- `ipw(k) = wire(IFTAB[k].IP)` (10_state.md R40). -/
def ipw (s : State) (k : Byte) : List Byte := wire (ifEntry s k).ip

end Sys2Proof.Machine
end

