-- ==== Sys2Proof/Machine/Trie.lean ====
section
/-! DEFINITION. The walks over the node store (spec/40_lpm_trie.md R124, R125, R130). -/

namespace Sys2Proof.Machine

/-- `node[n]`. An index with no node reads as an empty node, which no run meets (log entry 17). -/
def nodeAt (nodes : List Node) (n : Nat) : Node := nodes.getD n Node.empty

/-- `child[b]` of a node (10_state.md R44). -/
def Node.child (x : Node) (b : Bool) : Option Nat := if b then x.child1 else x.child0

/-- A node with `child[b]` set to `k`. -/
def Node.setChild (x : Node) (b : Bool) (k : Nat) : Node :=
  if b then { x with child1 := some k } else { x with child0 := some k }

/-- The child link of node `n` for the bit `b`. -/
def childOf (nodes : List Node) (n : Nat) (b : Bool) : Option Nat := (nodeAt nodes n).child b

/-- Creates a node and links it as `child[b]` of `n`; its index is the number of nodes so far (R124, 10_state.md R46). -/
def addChild (nodes : List Node) (n : Nat) (b : Bool) : List Node :=
  nodes.set n ((nodeAt nodes n).setChild b nodes.length) ++ [Node.empty]

/-- Sets the route of node `n` (R127). -/
def setRoute (nodes : List Node) (n r : Nat) : List Node :=
  nodes.set n { nodeAt nodes n with route := some r }

/-- Where an insertion's walk ends: the node store, the node reached, and how many nodes were created. -/
structure InsertWalk where
  nodes : List Node
  node : Nat
  created : Nat
deriving DecidableEq, Repr

/-- R124's loop over `fuel` positions from position `i` at node `n`, creating what is absent. -/
def insertWalk (p : Word) (i : Nat) : (fuel : Nat) → (nodes : List Node) → (n created : Nat) → InsertWalk
  | 0, nodes, n, created => ⟨nodes, n, created⟩
  | fuel + 1, nodes, n, created =>
    match childOf nodes n (kbit p i) with
    | some c => insertWalk p (i + 1) fuel nodes c created
    | none => insertWalk p (i + 1) fuel (addChild nodes n (kbit p i)) nodes.length (created + 1)

/-- The walk of an insertion of prefix `p` to depth `d`, from the root. -/
def insertPath (nodes : List Node) (p : Word) (d : Nat) : InsertWalk := insertWalk p 0 d nodes 0 0

/-- How many of the next `fuel` positions from `i` already have their node: R125's `d₀`, counted from node `n`. -/
def presentFrom (nodes : List Node) (p : Word) (i : Nat) : (fuel n : Nat) → Nat
  | 0, _ => 0
  | fuel + 1, n =>
    match childOf nodes n (kbit p i) with
    | some c => presentFrom nodes p (i + 1) fuel c + 1
    | none => 0

/-- `need(p, D) = D − d₀` (40_lpm_trie.md R125). -/
def need (nodes : List Node) (p : Word) (d : Nat) : Nat := d - presentFrom nodes p 0 d 0

/-- The node store after a route with prefix `p` is stored at depth `d` under the route index `r` (R124). -/
def storeRoute (nodes : List Node) (p : Word) (d r : Nat) : List Node :=
  setRoute (insertPath nodes p d).nodes (insertPath nodes p d).node r

/-- `route[r].mask`. An index with no route reads as mask 0, which no run meets (log entry 17). -/
def routeMask (routes : List RouteEntry) (r : Nat) : Word := (routes[r]?.map RouteEntry.mask).getD 0#32

/-- R130's `consider`: a stored route is taken when there is no best yet or its mask is strictly greater, unsigned
(R132). -/
def consider (nodes : List Node) (routes : List RouteEntry) (n : Nat) (best : Option Nat) : Option Nat :=
  match (nodeAt nodes n).route, best with
  | none, _ => best
  | some r, none => some r
  | some r, some b => if routeMask routes b < routeMask routes r then some r else some b

/-- R130's loop over `fuel` positions from position `i` at node `n`; an absent child stops it. -/
def lookupWalk (nodes : List Node) (routes : List RouteEntry) (a : Word) (i : Nat) :
    (fuel n : Nat) → (best : Option Nat) → Option Nat
  | 0, _, best => best
  | fuel + 1, n, best =>
    match childOf nodes n (kbit a i) with
    | none => best
    | some c => lookupWalk nodes routes a (i + 1) fuel c (consider nodes routes c best)

/-- The route index LPM_LOOKUP selects for the address `a`: the root is considered first (R133), then 32 positions. -/
def lookupBest (nodes : List Node) (routes : List RouteEntry) (a : Word) : Option Nat :=
  lookupWalk nodes routes a 0 32 0 (consider nodes routes 0 none)

end Sys2Proof.Machine
end

