-- ==== Sys2Proof/Syntax.lean ====
section
/-! DEFINITION. The nine commands (spec/30_encoding.md R92), one constructor per row of spec/opcode_table.json. -/

namespace Sys2Proof

/-- A legal command. Every operand but IFID is a register (30_encoding.md R91), so only the four commands that name an
interface carry a field. -/
inductive Instr where
  /-- 0x01 LPM_INSERT (40_lpm_trie.md R124). -/
  | lpmInsert
  /-- 0x02 LPM_LOOKUP (40_lpm_trie.md R130). -/
  | lpmLookup
  /-- 0x10 CSUM (41_checksum.md R163). -/
  | csum
  /-- 0x11 CSUM_FILL (41_checksum.md R164). -/
  | csumFill
  /-- 0x20 ICMP_ECHO_REPLY (42_frame_synth.md R184). -/
  | icmpEchoReply
  /-- 0x21 ICMP_DEST_UNREACH, IFID the receiving interface (42_frame_synth.md R186). -/
  | icmpDestUnreach (ifid : Byte)
  /-- 0x22 ICMP_TIME_EXCEEDED, IFID the receiving interface (42_frame_synth.md R187). -/
  | icmpTimeExceeded (ifid : Byte)
  /-- 0x30 ARP_REQUEST, IFID the egress interface (42_frame_synth.md R188). -/
  | arpRequest (ifid : Byte)
  /-- 0x31 ARP_REPLY, IFID the receiving interface (42_frame_synth.md R189). -/
  | arpReply (ifid : Byte)
deriving DecidableEq, Repr

/-- Why a command word is not legal: the three conditions of 30_encoding.md R93. Each of them completes with the one
error code ILLEGAL (60_exceptions.md R232). -/
inductive Illegal where
  /-- RSVD (bits 31:16) is not 0. -/
  | reservedBits
  /-- OPCODE is none of the nine values of R92 (R94). -/
  | reservedOpcode
  /-- IFID is not 0 in a command that takes no interface. -/
  | unusedIfid
deriving DecidableEq, Repr

end Sys2Proof
end

