-- ==== Sys2Proof/Machine/Ops.lean ====
section
/-! DEFINITION. The named operations over memory and registers: frame memory (spec/00_scope.md R13, 20_memory.md R73),
acceptance (10_state.md R29), the error checks (60_exceptions.md R235), completion (R236, R237) and reset
(70_reset_and_hazards.md R271). -/

namespace Sys2Proof.Machine

/-- The canonical form of frame memory: addresses strictly rising and inside 0x000–0xFFF (20_memory.md R62). -/
abbrev Memory.wf (m : Memory) : Prop :=
  m.Pairwise (fun c d => c.1 < d.1) ∧ ∀ c ∈ m, c.1 < 0x1000

/-- `FMEM[a]`; `none` is a byte with no value (20_memory.md R63). -/
def Memory.readByte : Memory → Nat → Option Byte
  | [], _ => none
  | (k, v) :: rest, a => if k = a then some v else Memory.readByte rest a

/-- Sets `FMEM[a]`, keeping the canonical form. -/
def Memory.writeByte : Memory → Nat → Byte → Memory
  | [], a, b => [(a, b)]
  | (k, v) :: rest, a, b =>
    if a < k then (a, b) :: (k, v) :: rest
    else if a = k then (a, b) :: rest
    else (k, v) :: Memory.writeByte rest a b

/-- `MemWrite(a, n, s)` (00_scope.md R13). -/
def Memory.write (m : Memory) (a : Nat) : List Byte → Memory
  | [] => m
  | b :: bs => Memory.write (m.writeByte a b) (a + 1) bs

/-- `MemRead(a, n)` (00_scope.md R13), or the first address whose byte has no value. -/
def Memory.read (m : Memory) (a : Nat) : Nat → Except Nat (List Byte)
  | 0 => .ok []
  | n + 1 =>
    match m.readByte a with
    | none => .error a
    | some b =>
      match Memory.read m (a + 1) n with
      | .ok bs => .ok (b :: bs)
      | .error e => .error e

/-- The outcome of a step of this machine. -/
abbrev Result := Host.Outcome State Fault Refusal

/-- Reads `n` bytes of frame memory at `a` and goes on with them; a byte with no value is a fault (20_memory.md R63). -/
def reading (m : Memory) (a n : Nat) (k : List Byte → Result) : Result :=
  match m.read a n with
  | .ok bs => k bs
  | .error e => .fault (.unwrittenByte e)

/-- Writes RES0–RES3, all four (10_state.md R31). -/
def setRes (r0 r1 r2 r3 : Word) (s : State) : State :=
  { s with res0 := r0, res1 := r1, res2 := r2, res3 := r3 }

/-- Writes frame memory: `MemWrite(a, n, bs)` on the state. -/
def setMem (a : Nat) (bs : List Byte) (s : State) : State := { s with fmem := s.fmem.write a bs }

/-- Names the frame a builder wrote: TX_LEN and TX_IF (10_state.md R33, R34). -/
def setTx (len : Half) (k : Byte) (s : State) : State := { s with txLen := len, txIf := k }

/-- Writes STATUS.FOUND (40_lpm_trie.md R130). -/
def setFound (f : Bool) (s : State) : State := { s with status := { s.status with found := f } }

/-- Acceptance of a command word: CMD is latched, BUSY set, DONE, ERR, FOUND and ERRCODE cleared (10_state.md R29). -/
def accept (w : Word) (s : State) : State :=
  { s with cmd := w, pending := true, status := s.status.accepted }

/-- `complete_ok()` (60_exceptions.md R237): the normal return from a command. -/
def completeOk (s : State) : State := { s with pending := false, status := s.status.completedOk }

/-- `complete_error(e)` (60_exceptions.md R236, R243): the engine's only form of exception entry. STATUS takes the
code, nothing else changes, and control goes nowhere. -/
def completeError (e : ErrorCode) (s : State) : State :=
  { s with pending := false, status := s.status.completedError e }

/-- Starts a reset: every piece of the engine's state takes its reset value, and the reset is in progress
(70_reset_and_hazards.md R271, R272). The pin, the hazard mark and the model's own fields are not the engine's state
(log entries 9 and 19). -/
def startReset (s : State) : State :=
  { State.resetWith s.params with
    resetting := true
    rst := s.rst
    hazard := s.hazard
    inputs := s.inputs
    resp := s.resp
    draws := s.draws }

/-- The reset ends: BUSY becomes 0 (R273). -/
def endReset (s : State) : State := { s with resetting := false }

/-- What `first_error` finds: nothing, an error code, or (in a model) a byte with no value it had to read. -/
inductive Check where
  | pass
  | error (e : ErrorCode)
  | unwritten (addr : Nat)
deriving DecidableEq, Repr

/-- The checks of a command on the received frame: RX_LEN over 2048 is RANGE, under `least` is SHORT_FRAME (R235). -/
def checkRxLen (least : Nat) (s : State) (k : Check) : Check :=
  if 2048 < s.rxLen.toNat then .error .range
  else if s.rxLen.toNat < least then .error .shortFrame
  else k

/-- The check of IFID against `P_NIF` (R235). -/
def checkIfid (ifid : Byte) (s : State) (k : Check) : Check :=
  if s.params.nif ≤ ifid.toNat then .error .badIf else k

/-- ICMP_ECHO_REPLY's check of the IP total length `T = be16(RX[16..18))` (R235). -/
def checkTotlen (s : State) : Check :=
  match s.fmem.read 16 2 with
  | .error a => .unwritten a
  | .ok t => if be16Seq t < 28 ∨ s.rxLen.toNat < 14 + be16Seq t then .error .badTotlen else .pass

/-- CSUM's range check: `a + n ≤ 0x1000` on unbounded integers (41_checksum.md R162). -/
def checkRange (s : State) (k : Check) : Check :=
  if 0x1000 < s.arg0.toNat + s.arg1.toNat then .error .range else k

/-- CSUM_FILL's check of its field address (41_checksum.md R162). -/
def checkField (s : State) (k : Check) : Check :=
  if 0x1000 < s.arg2.toNat + 2 then .error .range else k

/-- LPM_INSERT's capacity checks (60_exceptions.md R235, 40_lpm_trie.md R125). -/
def checkCapacity (s : State) : Check :=
  if s.routes.length = s.params.routeCap then .error .routeFull
  else if s.params.nodeCap < s.nodes.length + need s.nodes s.arg0 (depth s.params.depthExtra s.arg1) then
    .error .nodeFull
  else .pass

/-- `first_error(c)` of a legal command (60_exceptions.md R235), in the priority order of R234. It writes nothing. -/
def firstError (i : Instr) (s : State) : Check :=
  match i with
  | .lpmInsert => checkCapacity s
  | .lpmLookup => .pass
  | .csum => checkRange s .pass
  | .csumFill => checkRange s (checkField s .pass)
  | .icmpEchoReply => checkRxLen 42 s (checkTotlen s)
  | .icmpDestUnreach k => checkIfid k s (checkRxLen 34 s .pass)
  | .icmpTimeExceeded k => checkIfid k s (checkRxLen 34 s .pass)
  | .arpRequest k => checkIfid k s .pass
  | .arpReply k => checkIfid k s (checkRxLen 42 s .pass)

/-- Performs a command after its checks (30_encoding.md R100): an error completes at once, with no other effect. -/
def performing (i : Instr) (s : State) (perform : State → Result) : Result :=
  match firstError i s with
  | .unwritten a => .fault (.unwrittenByte a)
  | .error e => .next (completeError e s)
  | .pass => perform s

end Sys2Proof.Machine
end

