-- ==== Sys2Proof/Machine/HostBus.lean ====
section
/-! DEFINITION. The host bus: the window map (spec/20_memory.md R61), the registers (10_state.md section 2), widths and
alignment (20_memory.md R65–R68), side effects (R71) and hazards (70_reset_and_hazards.md R281, R282). -/

namespace Sys2Proof.Machine

/-- The window offset of a bus address, if it lies in the 0x2000-byte window at `P_BASE` (R60, R61). -/
def windowOffset (p : Params) (addr : Nat) : Option Nat :=
  if p.base ≤ addr ∧ addr < p.base + 0x2000 then some (addr - p.base) else none

/-- The register of the interface table at an offset inside it (10_state.md R40); slots k ≥ P_NIF and the fourth word
of a slot are reserved. -/
def ifRegAt (p : Params) (off : Nat) : Option Reg :=
  let k := (off - 0x100) / 16
  if k < p.nif then
    if off % 16 = 0 then some (.ifIp k)
    else if off % 16 = 4 then some (.ifMacLo k)
    else if off % 16 = 8 then some (.ifMacHi k)
    else none
  else none

/-- The registers below the interface table, by offset (10_state.md section 2). -/
def regTable : List (Nat × Reg) :=
  [(0x000, .id), (0x004, .ctrl), (0x008, .status), (0x00C, .cmd),
   (0x010, .arg0), (0x014, .arg1), (0x018, .arg2), (0x01C, .arg3),
   (0x020, .res0), (0x024, .res1), (0x028, .res2), (0x02C, .res3),
   (0x030, .rxLen), (0x034, .txLen), (0x038, .txIf),
   (0x040, .routeCount), (0x044, .nodeCount), (0x048, .cfg), (0x04C, .routeCap), (0x050, .nodeCap)]

/-- The register at a 4-byte aligned offset of the register area, `none` where the offset is reserved (R64). -/
def regAt (p : Params) (off : Nat) : Option Reg :=
  if 0x100 ≤ off ∧ off < 0x200 then ifRegAt p off else regTable.lookup off

/-- The interface entry behind a register of the table. -/
def ifAt (s : State) (k : Nat) : IfEntry := s.iftab.getD k IfEntry.zero

/-- CFG: P_NIF in bits 4:0 and P_DEPTH_EXTRA in bit 8 (10_state.md R37). -/
def cfgWord (p : Params) : Word :=
  (BitVec.ofNat 5 p.nif).setWidth 32 ||| bitWord (p.depthExtra.val == 1) 8

/-- The value a register holds as the host reads it; reserved bits read 0 (10_state.md R22–R40). -/
def readReg (s : State) : Reg → Word
  | .id => 0x4C504D01#32
  | .ctrl => bitWord s.irqEn 1
  | .status => statusWord s
  | .cmd => s.cmd
  | .arg0 => s.arg0
  | .arg1 => s.arg1
  | .arg2 => s.arg2
  | .arg3 => s.arg3
  | .res0 => s.res0
  | .res1 => s.res1
  | .res2 => s.res2
  | .res3 => s.res3
  | .rxLen => s.rxLen.setWidth 32
  | .txLen => s.txLen.setWidth 32
  | .txIf => s.txIf.setWidth 32
  | .routeCount => BitVec.ofNat 32 s.routes.length
  | .nodeCount => BitVec.ofNat 32 s.nodes.length
  | .cfg => cfgWord s.params
  | .routeCap => BitVec.ofNat 32 s.params.routeCap
  | .nodeCap => BitVec.ofNat 32 s.params.nodeCap
  | .ifIp k => (ifAt s k).ip
  | .ifMacLo k => (ifAt s k).macLo
  | .ifMacHi k => (ifAt s k).macHi.setWidth 32

/-- Registers whose read while BUSY = 1 is always safe (70_reset_and_hazards.md R281). A read of any other defined
register then is a hazard whose value is unspecified (20_memory.md R72, R281; log entry 15). -/
def Reg.safeWhileBusy : Reg → Bool
  | .id | .ctrl | .status | .cmd | .cfg | .routeCap | .nodeCap => true
  | .arg0 | .arg1 | .arg2 | .arg3 | .res0 | .res1 | .res2 | .res3 | .rxLen | .txLen | .txIf
  | .routeCount | .nodeCount | .ifIp _ | .ifMacLo _ | .ifMacHi _ => false

/-- Registers whose write while BUSY = 1 is a hazard: ARG0–ARG3, RX_LEN and IFTAB (R281; log entry 14). -/
def Reg.hazardWrite : Reg → Bool
  | .arg0 | .arg1 | .arg2 | .arg3 | .rxLen | .ifIp _ | .ifMacLo _ | .ifMacHi _ => true
  | .id | .ctrl | .status | .cmd | .res0 | .res1 | .res2 | .res3 | .txLen | .txIf
  | .routeCount | .nodeCount | .cfg | .routeCap | .nodeCap => false

/-- A write to CTRL: bit 0 starts a reset and the other bits are then ignored; else bit 1 is IRQ_EN (10_state.md R23,
70_reset_and_hazards.md R272). -/
def writeCtrl (v : Word) (s : State) : State :=
  if v.getLsbD 0 then startReset s else { s with irqEn := v.getLsbD 1 }

/-- A write to STATUS clears DONE and OVR where 1 is written (10_state.md R24). -/
def writeStatus (v : Word) (s : State) : State := { s with status := s.status.clearWritten v }

/-- A write to CMD: accepted when BUSY = 0 (10_state.md R29), else OVR is set (60_exceptions.md R238). -/
def writeCmd (v : Word) (s : State) : State :=
  if s.busy then { s with status := { s.status with ovr := true } } else accept v s

/-- A 4-byte write to a register; read-only registers ignore it (10_state.md R22–R40, 20_memory.md R71). -/
def writeReg (r : Reg) (v : Word) (s : State) : State :=
  match r with
  | .ctrl => writeCtrl v s
  | .status => writeStatus v s
  | .cmd => writeCmd v s
  | .arg0 => { s with arg0 := v }
  | .arg1 => { s with arg1 := v }
  | .arg2 => { s with arg2 := v }
  | .arg3 => { s with arg3 := v }
  | .rxLen => { s with rxLen := v.setWidth 16 }
  | .ifIp k => { s with iftab := s.iftab.set k { ifAt s k with ip := v } }
  | .ifMacLo k => { s with iftab := s.iftab.set k { ifAt s k with macLo := v } }
  | .ifMacHi k => { s with iftab := s.iftab.set k { ifAt s k with macHi := v.setWidth 16 } }
  | .id | .res0 | .res1 | .res2 | .res3 | .txLen | .txIf
  | .routeCount | .nodeCount | .cfg | .routeCap | .nodeCap => s

/-- The number of bytes of an access (20_memory.md R65). -/
def Width.bytes : Width → Nat
  | .one => 1
  | .two => 2
  | .four => 4

/-- Whether an access at a window offset is legal: in the register area 4 bytes at a multiple of 4 (R66), in the FMEM
area a multiple of the width (R67). -/
def legalAccess (off : Nat) (w : Width) : Bool :=
  if off < 0x1000 then w == .four && off % 4 == 0 else off % w.bytes == 0

/-- `n` free bytes, as a register value: the draw of 70_reset_and_hazards.md R282. -/
def drawn (s : State) (n : Nat) : List Byte := (List.range n).map fun j => Config.freeByte (s.draws + j)

/-- Answers a read: the value on the bus. -/
def respond (v : Word) (s : State) : State := { s with resp := some (.value v) }

/-- Answers a read with `n` free bytes, little-endian, and uses them up. -/
def respondDrawn (n : Nat) (s : State) : State :=
  { s with resp := some (.value (raw (drawn s n))), draws := s.draws + n }

/-- The bytes a host read of frame memory returns: a byte with no value is drawn (20_memory.md R63). -/
def fmemBytes (s : State) (a n : Nat) : List Byte :=
  (List.range n).map fun j => (s.fmem.readByte (a + j)).getD (Config.freeByte (s.draws + j))

/-- A legal host read at a window offset. -/
def hostRead (off : Nat) (w : Width) (s : State) : State :=
  if off < 0x1000 then
    match regAt s.params off with
    | none => respond 0#32 s
    | some r => if s.busy && !r.safeWhileBusy then respondDrawn 4 s else respond (readReg s r) s
  else if s.busy then respondDrawn w.bytes s
  else { respond (raw (fmemBytes s (off - 0x1000) w.bytes)) s with draws := s.draws + w.bytes }

/-- The bytes a host write of `n` bytes stores, lowest first (20_memory.md R67). -/
def writtenBytes (v : Word) (n : Nat) : List Byte := (wire v).take n

/-- A legal host write at a window offset. A write of class 1 of R281 while BUSY = 1 sets the hazard mark (R282; log
entry 9). -/
def hostWrite (off : Nat) (w : Width) (v : Word) (s : State) : State :=
  if off < 0x1000 then
    match regAt s.params off with
    | none => s
    | some r => if s.busy && r.hazardWrite then { s with hazard := true } else writeReg r v s
  else if s.busy then { s with hazard := true }
  else setMem (off - 0x1000) (writtenBytes v w.bytes) s

/-- The bus address of an access. -/
def Access.addr : Access → Nat
  | .read a _ => a
  | .write a _ _ => a

/-- The width of an access. -/
def Access.width : Access → Width
  | .read _ w => w
  | .write _ w _ => w

/-- A legal access at its window offset, with its OKAY response (20_memory.md R65). -/
def performAccess (acc : Access) (off : Nat) (s : State) : State :=
  match acc with
  | .read _ w => hostRead off w s
  | .write _ w v => { hostWrite off w v s with resp := some .written }

/-- One host access: outside the window it is not the engine's (log entry 3); an illegal one is a fault of the host
(R68); a legal one completes. -/
def hostAccess (acc : Access) (s : State) : Result :=
  match windowOffset s.params acc.addr with
  | none => .refused (.outsideWindow acc.addr)
  | some off =>
    if legalAccess off acc.width then .next (performAccess acc off s) else .fault (.busError acc.addr)

/-- One poll of `WAIT` (30_encoding.md R102): the host reads STATUS; while BUSY = 1 the sequencer has its turn and the
host polls again. DESIGN CHOICE (log entry 5): the turn and the next poll go before every later input, so no edge of
`rst` comes between the polls of one WAIT, and a WAIT begun while `rst` is asserted polls forever. Unsafe. -/
def hostWait (s : State) : State :=
  if s.busy then { respond (statusWord s) s with inputs := .engine :: .wait :: s.inputs }
  else respond (statusWord s) s

/-- `rst` is asserted: a reset starts (70_reset_and_hazards.md R271). -/
def rstAsserted (s : State) : State := { startReset s with rst := true }

/-- `rst` is deasserted: the reset may now end (R273). -/
def rstDeasserted (s : State) : State := { s with rst := false }

end Sys2Proof.Machine
end

