-- ==== Sys2Proof/WellFormed.lean ====
section
/-! DEFINITION. What is well formed: an instance's parameters (spec/00_scope.md R9), a command word (30_encoding.md R93)
and a command's interface operand (the IFID field of spec/opcode_table.json). -/

namespace Sys2Proof

/-- The legal values of 00_scope.md R9, and R61 of 20_memory.md for the base address. The legal values of
`P_DEPTH_EXTRA` and `P_ERR_IP_ID` are those of their types. -/
abbrev Params.legal (p : Params) : Prop :=
  (1 ≤ p.routeCap ∧ p.routeCap ≤ 2 ^ 24) ∧
  (1 ≤ p.nodeCap ∧ p.nodeCap ≤ 2 ^ 32 - 1) ∧
  (1 ≤ p.nif ∧ p.nif ≤ 16) ∧
  p.base % 0x2000 = 0

/-- OPCODE is one of the nine values of R92. -/
def CommandWord.opcodeDefined (w : Word) : Bool :=
  [0x01#8, 0x02#8, 0x10#8, 0x11#8, 0x20#8, 0x21#8, 0x22#8, 0x30#8, 0x31#8].contains (w.extractLsb' 0 8)

/-- RSVD = 0. -/
def CommandWord.rsvdZero (w : Word) : Bool :=
  w.extractLsb' 16 16 == 0#16

/-- IFID = 0 for the opcodes whose IFID column says "must be 0". -/
def CommandWord.ifidAllowed (w : Word) : Bool :=
  [0x21#8, 0x22#8, 0x30#8, 0x31#8].contains (w.extractLsb' 0 8) || w.extractLsb' 8 8 == 0#8

/-- A legal command word (R93). -/
def CommandWord.legal (w : Word) : Bool :=
  CommandWord.opcodeDefined w && CommandWord.rsvdZero w && CommandWord.ifidAllowed w

/-- The interface a command names, if it names one. -/
def Instr.ifid? : Instr → Option Byte
  | .lpmInsert | .lpmLookup | .csum | .csumFill | .icmpEchoReply => none
  | .icmpDestUnreach k | .icmpTimeExceeded k | .arpRequest k | .arpReply k => some k

/-- A command is well formed for an instance when the interface it names exists there ("interface id, 0 .. P_NIF-1",
opcode_table.json). One that is not still runs: it completes with BAD_IF (60_exceptions.md R232). -/
def Instr.wf (p : Params) (i : Instr) : Bool :=
  match i.ifid? with
  | none => true
  | some k => k.toNat < p.nif

end Sys2Proof
end

