-- ==== Sys2Proof/Decode.lean ====
section
/-! DEFINITION. Decoding a command word (spec/30_encoding.md R95), total on every word and rejecting by name, and the
encoder written from the same table (R90, R92). -/

namespace Sys2Proof

/-- OPCODE, bits 7:0 (30_encoding.md R90). -/
def opcodeField (w : Word) : Byte := w.extractLsb' 0 8

/-- IFID, bits 15:8. -/
def ifidField (w : Word) : Byte := w.extractLsb' 8 8

/-- RSVD, bits 31:16. -/
def rsvdField (w : Word) : Half := w.extractLsb' 16 16

/-- A command whose IFID must be 0 (R92's IFID column). -/
def withoutIfid (w : Word) (i : Instr) : Except Illegal Instr :=
  if ifidField w = 0#8 then .ok i else .error .unusedIfid

/-- R95's case on OPCODE. -/
def decodeOpcode (w : Word) : Except Illegal Instr :=
  if opcodeField w = 0x01#8 then withoutIfid w .lpmInsert
  else if opcodeField w = 0x02#8 then withoutIfid w .lpmLookup
  else if opcodeField w = 0x10#8 then withoutIfid w .csum
  else if opcodeField w = 0x11#8 then withoutIfid w .csumFill
  else if opcodeField w = 0x20#8 then withoutIfid w .icmpEchoReply
  else if opcodeField w = 0x21#8 then .ok (.icmpDestUnreach (ifidField w))
  else if opcodeField w = 0x22#8 then .ok (.icmpTimeExceeded (ifidField w))
  else if opcodeField w = 0x30#8 then .ok (.arpRequest (ifidField w))
  else if opcodeField w = 0x31#8 then .ok (.arpReply (ifidField w))
  else .error .reservedOpcode

/-- Decode, as a total function of the 32-bit word (30_encoding.md R95). -/
def decode (w : Word) : Except Illegal Instr :=
  if rsvdField w = 0#16 then decodeOpcode w else .error .reservedBits

/-- A command word from its fields, `OPCODE | IFID << 8`, RSVD = 0 (R90, and the "Encoding" lines of R186–R189). -/
def commandWord (ifid opcode : Byte) : Word := opcode.setWidth 32 ||| ifid.setWidth 32 <<< 8

/-- The command word of a command (R92; the "Encoding" lines of R124–R189). -/
def encode : Instr → Word
  | .lpmInsert => commandWord 0x00#8 0x01#8
  | .lpmLookup => commandWord 0x00#8 0x02#8
  | .csum => commandWord 0x00#8 0x10#8
  | .csumFill => commandWord 0x00#8 0x11#8
  | .icmpEchoReply => commandWord 0x00#8 0x20#8
  | .icmpDestUnreach k => commandWord k 0x21#8
  | .icmpTimeExceeded k => commandWord k 0x22#8
  | .arpRequest k => commandWord k 0x30#8
  | .arpReply k => commandWord k 0x31#8

/-- What `decode` reads from an instruction given as opcode_table.json numbers its bits. A command word is one 32-bit
register write (30_encoding.md R90, 20_memory.md R74), so the bits are the word itself. -/
def decodeTableWord (nbits w : Nat) : Option Instr :=
  let v := w % 2 ^ nbits
  if v < 2 ^ 32 then
    match decode (BitVec.ofNat 32 v) with
    | .ok i => some i
    | .error _ => none
  else none

end Sys2Proof
end

