-- ==== Sys2Proof/Machine/Checksum.lean ====
section
/-! DEFINITION. The Internet checksum and its two commands (spec/41_checksum.md). -/

namespace Sys2Proof.Machine

/-- The sum of the big-endian 16-bit words of a sequence, an odd last byte padded with a zero byte (R160). -/
def wordSum : List Byte → Nat
  | [] => 0
  | [h] => be16 h 0#8
  | h :: l :: rest => be16 h l + wordSum rest

/-- R160's end-around carry: while the sum exceeds 0xFFFF, its high part is added to its low 16 bits. Each turn makes
a sum above 0xFFFF smaller, so `acc` turns are enough. -/
def foldCarry (acc : Nat) : (fuel : Nat) → Nat
  | 0 => acc
  | fuel + 1 => if 0xFFFF < acc then foldCarry (acc % 0x10000 + acc / 0x10000) fuel else acc

/-- `ones_sum(s)` (R160). -/
def onesSum (s : List Byte) : Nat := foldCarry (wordSum s) (wordSum s)

/-- `csum(s) = (~ones_sum(s)) & 0xFFFF` (R161). -/
def internetCsum (s : List Byte) : Half := ~~~ BitVec.ofNat 16 (onesSum s)

/-- RES0 takes a checksum, RES1–RES3 are 0 (R163, R164). -/
def csumResult (c : Half) (s : State) : State := setRes (zext32 c) 0#32 0#32 0#32 s

/-- CSUM (opcode 0x10, R163). -/
def execCsum (s : State) : Result :=
  performing .csum s fun s =>
    reading s.fmem s.arg0.toNat s.arg1.toNat fun bs =>
      .next (completeOk (csumResult (internetCsum bs) s))

/-- CSUM_FILL (opcode 0x11, R164): the field is zeroed, the range summed, the checksum stored in the field. -/
def execCsumFill (s : State) : Result :=
  performing .csumFill s fun s =>
    let zeroed := setMem s.arg2.toNat [0x00#8, 0x00#8] s
    reading zeroed.fmem s.arg0.toNat s.arg1.toNat fun bs =>
      .next (completeOk (csumResult (internetCsum bs) (setMem s.arg2.toNat (tobe16 (internetCsum bs)) zeroed)))

end Sys2Proof.Machine
end

