-- ==== Sys2Proof/Machine/Frames.lean ====
section
/-! DEFINITION. The frame synthesizer (spec/42_frame_synth.md): one in-place builder and four TXBUF builders. -/

namespace Sys2Proof.Machine

/-- ICMP_ECHO_REPLY (opcode 0x20, R184): in RXBUF, type and code 0, IP addresses exchanged, ICMP checksum recomputed
over the whole ICMP message. The writes stand in the order of R184's pseudocode. -/
def execIcmpEchoReply (s : State) : Result :=
  performing .icmpEchoReply s fun s =>
    reading s.fmem 16 2 fun t =>
    let s1 := setMem 34 [0x00#8, 0x00#8] s
    reading s1.fmem 26 4 fun src =>
    reading s1.fmem 30 4 fun dst =>
    let s2 := setMem 36 [0x00#8, 0x00#8] (setMem 30 src (setMem 26 dst s1))
    reading s2.fmem 34 (be16Seq t - 20) fun msg =>
      .next (completeOk (csumResult (internetCsum msg) (setMem 36 (tobe16 (internetCsum msg)) s2)))

/-- The fixed part of the ICMP error's IPv4 header: 0x45, TOS 0, total length 36, `P_ERR_IP_ID`, no flags, TTL 64,
protocol 1, checksum 0 (R185). -/
def errorIpHeader (id : Half) : List Byte :=
  [0x45#8, 0x00#8, 0x00#8, 0x24#8] ++ tobe16 id ++ [0x00#8, 0x00#8, 0x40#8, 0x01#8, 0x00#8, 0x00#8]

/-- `build_icmp_error(t)` (R185). -/
def buildIcmpError (t : Byte) (k : Byte) (s : State) : Result :=
  reading s.fmem 6 6 fun smac =>
  reading s.fmem 14 8 fun orig =>
  reading s.fmem 26 4 fun osrc =>
  let s1 := setMem 0x800 smac s
  let s2 := setMem 0x806 (mac s k) s1
  let s3 := setMem 0x80C [0x08#8, 0x00#8] s2
  let s4 := setMem 0x80E (errorIpHeader s.params.errIpId) s3
  let s5 := setMem 0x81A (ipw s k) s4
  let s6 := setMem 0x81E osrc s5
  reading s6.fmem 0x80E 20 fun ipHeader =>
  let ci := internetCsum ipHeader
  let s7 := setMem 0x818 (tobe16 ci) s6
  let s8 := setMem 0x822 [t, 0x00#8, 0x00#8, 0x00#8, 0x00#8, 0x00#8, 0x00#8, 0x00#8] s7
  let s9 := setMem 0x82A orig s8
  reading s9.fmem 0x822 16 fun icmp =>
  let cc := internetCsum icmp
  let s10 := setMem 0x824 (tobe16 cc) s9
  .next (completeOk (setRes (zext32 ci) (zext32 cc) 0#32 0#32 (setTx 50#16 k s10)))

/-- ICMP_DEST_UNREACH (opcode 0x21, R186): `build_icmp_error(3)`. -/
def execIcmpDestUnreach (k : Byte) (s : State) : Result :=
  performing (.icmpDestUnreach k) s (buildIcmpError 0x03#8 k)

/-- ICMP_TIME_EXCEEDED (opcode 0x22, R187): `build_icmp_error(11)`. -/
def execIcmpTimeExceeded (k : Byte) (s : State) : Result :=
  performing (.icmpTimeExceeded k) s (buildIcmpError 0x0B#8 k)

/-- A 42-byte ARP frame (R180, R183): Ethernet destination, the interface's MAC, type 0x0806, the constants, the
opcode, the interface's own MAC and IP, and the target's hardware and protocol address. -/
def arpFrame (s : State) (k : Byte) (dst : List Byte) (oper : Byte) (tha tpa : List Byte) : List Byte :=
  dst ++ mac s k ++ [0x08#8, 0x06#8] ++
    [0x00#8, 0x01#8, 0x08#8, 0x00#8, 0x06#8, 0x04#8, 0x00#8, oper] ++
    mac s k ++ ipw s k ++ tha ++ tpa

/-- Leaves an ARP frame in TXBUF and completes: TX_LEN = 42, TX_IF = IFID, RES0–RES3 = 0 (R188, R189). -/
def sendArp (k : Byte) (frame : List Byte) (s : State) : Result :=
  .next (completeOk (setRes 0#32 0#32 0#32 0#32 (setTx 42#16 k (setMem 0x800 frame s))))

/-- ARP_REQUEST (opcode 0x30, R188): broadcast, opcode 1, target hardware address 0, target address ARG0. -/
def execArpRequest (k : Byte) (s : State) : Result :=
  performing (.arpRequest k) s fun s =>
    sendArp k (arpFrame s k (List.replicate 6 0xFF#8) 0x01#8 (List.replicate 6 0x00#8) (wire s.arg0)) s

/-- ARP_REPLY (opcode 0x31, R189): to the requester's Ethernet source, opcode 2, target the request's sender fields. -/
def execArpReply (k : Byte) (s : State) : Result :=
  performing (.arpReply k) s fun s =>
    reading s.fmem 6 6 fun rmac =>
    reading s.fmem 22 6 fun rsha =>
    reading s.fmem 28 4 fun rspa =>
      sendArp k (arpFrame s k rmac 0x02#8 rsha rspa) s

end Sys2Proof.Machine
end

