-- ==== Sys2Proof/Machine/Lpm.lean ====
section
/-! DEFINITION. The trie commands (spec/40_lpm_trie.md). -/

namespace Sys2Proof.Machine

/-- R124 after its checks: the route is appended, the walk creates what is missing, the node reached takes the route;
RES0 is the route index and RES1 the number of nodes created. -/
def performLpmInsert (s : State) : Result :=
  let d := depth s.params.depthExtra s.arg1
  .next (completeOk (setRes (BitVec.ofNat 32 s.routes.length)
    (BitVec.ofNat 32 (insertPath s.nodes s.arg0 d).created) 0#32 0#32
    { s with
      routes := s.routes ++ [argRoute s]
      nodes := storeRoute s.nodes s.arg0 d s.routes.length }))

/-- LPM_INSERT (opcode 0x01, R124). -/
def execLpmInsert (s : State) : Result := performing .lpmInsert s performLpmInsert

/-- RES3 of a hit: `{ best[23:0], egress_if[7:0] }` (R131). -/
def hitRes3 (best : Nat) (egress : Byte) : Word := BitVec.ofNat 32 best <<< 8 ||| egress.setWidth 32

/-- The results of a hit (R131). -/
def lookupHit (best : Nat) (r : RouteEntry) (s : State) : State :=
  setFound true (setRes r.pfx r.mask r.nextHop (hitRes3 best r.egressIf) s)

/-- The results of a miss (R131). -/
def lookupMiss (s : State) : State := setFound false (setRes 0#32 0#32 0#32 0#32 s)

/-- The results of a selected route index. An index with no route, which no run meets, is a miss (log entry 17). -/
def lookupResult (s : State) : State :=
  match lookupBest s.nodes s.routes s.arg0 with
  | none => lookupMiss s
  | some best =>
    match s.routes[best]? with
    | none => lookupMiss s
    | some r => lookupHit best r s

/-- LPM_LOOKUP (opcode 0x02, R130). A miss is not an error. -/
def execLpmLookup (s : State) : Result :=
  performing .lpmLookup s fun s => .next (completeOk (lookupResult s))

end Sys2Proof.Machine
end

