-- ==== Sys2Proof/Machine/Dispatch.lean ====
section
/-! DEFINITION. One arm per command: `perform(c)` after its checks (spec/30_encoding.md R100). -/

namespace Sys2Proof.Machine

def exec (i : Instr) (s : State) : Host.Outcome State Fault Refusal :=
  match i with
  | .lpmInsert => Sys2Proof.Machine.execLpmInsert s
  | .lpmLookup => Sys2Proof.Machine.execLpmLookup s
  | .csum => Sys2Proof.Machine.execCsum s
  | .csumFill => Sys2Proof.Machine.execCsumFill s
  | .icmpEchoReply => Sys2Proof.Machine.execIcmpEchoReply s
  | .icmpDestUnreach k => Sys2Proof.Machine.execIcmpDestUnreach k s
  | .icmpTimeExceeded k => Sys2Proof.Machine.execIcmpTimeExceeded k s
  | .arpRequest k => Sys2Proof.Machine.execArpRequest k s
  | .arpReply k => Sys2Proof.Machine.execArpReply k s

end Sys2Proof.Machine
end

