-- ==== Sys2Proof/Machine/Sequencer.lean ====
section
/-! DEFINITION. The command sequencer (spec/30_encoding.md R100, 70_reset_and_hazards.md R273, 60_exceptions.md R251). -/

namespace Sys2Proof.Machine

/-- R100's step: the word in CMD is decoded and performed; a word that is not legal completes with ILLEGAL. -/
def runCommand (s : State) : Result :=
  match decode s.cmd with
  | .error _ => .next (completeError .illegal s)
  | .ok i => exec i s

/-- The sequencer's turn: a reset in progress ends once `rst` is deasserted (R273), a pending command is performed
(R100), an idle engine holds all its state (R251). -/
def engineTurn (s : State) : Result :=
  if s.resetting then .next (if s.rst then s else endReset s)
  else if s.pending then runCommand s
  else .next s

end Sys2Proof.Machine
end

