-- ==== Sys2Proof/Machine/Step.lean ====
section
/-! DEFINITION. One step of the machine: the next input acts, or the sequencer where none is left. -/

namespace Sys2Proof.Machine

/-- One move (spec/20_memory.md R75: accesses and sequencer steps happen one at a time). A run with the hazard mark
stops (70_reset_and_hazards.md R282). -/
def step (s : State) : Host.Outcome State Fault Refusal :=
  if s.hazard then .fault .hazard
  else
    match s.inputs with
    | [] => engineTurn s
    | .engine :: rest => engineTurn { s with inputs := rest }
    | .access a :: rest => hostAccess a { s with inputs := rest }
    | .wait :: rest => .next (hostWait { s with inputs := rest })
    | .rstAssert :: rest => .next (rstAsserted { s with inputs := rest })
    | .rstDeassert :: rest => .next (rstDeasserted { s with inputs := rest })

/-- `s` with the command word `w` accepted and the sequencer to move next, so that the very next step performs it. It
stands for the host's CMD write (10_state.md R29; log entry 12). -/
def State.withFetchWord (s : State) (nbits w : Nat) : State :=
  { accept (BitVec.ofNat 32 (w % 2 ^ nbits)) s with
    resetting := false
    rst := false
    hazard := false
    inputs := .engine :: s.inputs }

end Sys2Proof.Machine
end

