-- ==== Sys2Proof/Safety.lean ====
section
/-! DEFINITION. The terms claims are stated in: frames, byte sequences in memory, the trie's laws (spec/40_lpm_trie.md
R127, R134), and the invariant of the machine. -/

namespace Sys2Proof.Safety

open Sys2Proof.Machine

/-- Frame memory holds the sequence `bs` at `a`, every byte with its value (00_scope.md R12). -/
def HasBytes (m : Memory) (a : Nat) (bs : List Byte) : Prop :=
  ∀ j b, bs[j]? = some b → m.readByte (a + j) = some b

/-- Every byte of frame memory outside `n` bytes at `a` reads the same before and after. -/
def SameOutside (a n : Nat) (s t : State) : Prop :=
  ∀ x, x < a ∨ a + n ≤ x → t.fmem.readByte x = s.fmem.readByte x

/-- Every byte of frame memory reads the same. -/
def SameMem (s t : State) : Prop := ∀ x, t.fmem.readByte x = s.fmem.readByte x

/-- What no command writes: the instance, CTRL, CMD, the operand registers, RX_LEN, IFTAB, OVR, a reset in progress, and
what lies outside the engine (10_state.md R30, R32, R41). -/
def SameOperands (s t : State) : Prop :=
  t.params = s.params ∧ t.irqEn = s.irqEn ∧ t.cmd = s.cmd ∧
  t.arg0 = s.arg0 ∧ t.arg1 = s.arg1 ∧ t.arg2 = s.arg2 ∧ t.arg3 = s.arg3 ∧
  t.rxLen = s.rxLen ∧ t.iftab = s.iftab ∧ t.status.ovr = s.status.ovr ∧
  t.resetting = s.resetting ∧ t.rst = s.rst ∧ t.hazard = s.hazard ∧
  t.inputs = s.inputs ∧ t.resp = s.resp ∧ t.draws = s.draws

/-- The route and node stores are unchanged. -/
def SameStores (s t : State) : Prop := t.routes = s.routes ∧ t.nodes = s.nodes

/-- TX_LEN and TX_IF are unchanged. -/
def SameTx (s t : State) : Prop := t.txLen = s.txLen ∧ t.txIf = s.txIf

/-- The result registers hold these four values (10_state.md R31). -/
def HasRes (t : State) (r0 r1 r2 r3 : Word) : Prop :=
  t.res0 = r0 ∧ t.res1 = r1 ∧ t.res2 = r2 ∧ t.res3 = r3

/-- A command completed without error and FOUND is as before (60_exceptions.md R237). -/
def CompletedOk (s t : State) : Prop :=
  t.pending = false ∧ t.status.done = true ∧ t.status.err = false ∧ t.status.errCode = .none ∧
  t.status.found = s.status.found

/-- The state a command leaves that completes with the error `e`: STATUS and nothing else (60_exceptions.md R236). -/
def errorState (e : ErrorCode) (s : State) : State :=
  { s with
    pending := false
    status := { done := true, err := true, found := false, ovr := s.status.ovr, errCode := e } }

/-- The node reached from `n` by following `fuel` key bits of `p` from position `i`, if every link is there. -/
def follow (nodes : List Node) (p : Word) (i : Nat) : (fuel n : Nat) → Option Nat
  | 0, n => some n
  | fuel + 1, n =>
    match childOf nodes n (kbit p i) with
    | none => none
    | some c => follow nodes p (i + 1) fuel c

/-- The node store after storing the routes of a list one by one, the first under the index `r`. -/
def buildFrom (extra : Fin 2) (nodes : List Node) (r : Nat) : List RouteEntry → List Node
  | [] => nodes
  | e :: es => buildFrom extra (storeRoute nodes e.pfx (depth extra e.mask) r) (r + 1) es

/-- The node store that inserting the routes of a list in order, from the empty trie, gives. -/
def build (extra : Fin 2) (routes : List RouteEntry) : List Node := buildFrom extra [Node.empty] 0 routes

/-- Two routes have the same depth and agree at every position walked: the condition of 40_lpm_trie.md R127. -/
def SamePath (extra : Fin 2) (e f : RouteEntry) : Prop :=
  depth extra e.mask = depth extra f.mask ∧ ∀ i < depth extra e.mask, kbit e.pfx i = kbit f.pfx i

/-- A live route: no later insertion reached the same node (40_lpm_trie.md R134). -/
def Live (extra : Fin 2) (routes : List RouteEntry) (r : Nat) : Prop :=
  ∃ e, routes[r]? = some e ∧ ∀ q f, r < q → routes[q]? = some f → ¬ SamePath extra e f

/-- A live route that R134's closed form considers for the address `a`. -/
def Candidate (extra : Fin 2) (routes : List RouteEntry) (a : Word) (r : Nat) : Prop :=
  Live extra routes r ∧
  ∃ e, routes[r]? = some e ∧ depth extra e.mask ≤ 32 ∧ ∀ i < depth extra e.mask, kbit a i = kbit e.pfx i

/-- The octet of a dotted mask that holds `n` leading ones (all of them for `n ≥ 8`). -/
def maskOctet (n : Nat) : Byte := BitVec.ofNat 8 (256 - 2 ^ (8 - min n 8))

/-- The raw value of the dotted mask /n: its wire octets are filled from the first (40_lpm_trie.md R122). -/
def dottedMask (n : Nat) : Word :=
  raw [maskOctet n, maskOctet (n - 8), maskOctet (n - 16), maskOctet (n - 24)]

/-- The IPv4 header of an ICMP error frame with the checksum `ck` (42_frame_synth.md R185). -/
def errorHeader (id ck : Half) (src dst : List Byte) : List Byte :=
  [0x45#8, 0x00#8, 0x00#8, 0x24#8, id.extractLsb' 8 8, id.extractLsb' 0 8, 0x00#8, 0x00#8, 0x40#8, 0x01#8,
    ck.extractLsb' 8 8, ck.extractLsb' 0 8] ++ src ++ dst

/-- The ICMP message of an ICMP error frame with the checksum `ck` (42_frame_synth.md R185). -/
def errorMessage (type : Byte) (ck : Half) (orig : List Byte) : List Byte :=
  [type, 0x00#8, ck.extractLsb' 8 8, ck.extractLsb' 0 8, 0x00#8, 0x00#8, 0x00#8, 0x00#8] ++ orig

/-- STATUS is clear while BUSY = 1: acceptance and a reset clear it (10_state.md R24, R29). -/
def BusyClear (s : State) : Prop :=
  s.busy = true → s.status.done = false ∧ s.status.err = false ∧ s.status.found = false ∧ s.status.errCode = .none

/-- The invariant of the machine. Every reachable state has it, and every step keeps it. -/
structure Inv (s : State) : Prop where
  /-- The instance is legal (00_scope.md R9). -/
  params : s.params.legal
  /-- IFTAB has P_NIF entries (10_state.md R40). -/
  iftab : s.iftab.length = s.params.nif
  /-- Frame memory is in its canonical form, inside 0x000–0xFFF (20_memory.md R62). -/
  fmem : s.fmem.wf
  /-- ROUTE_COUNT ≤ P_ROUTE_CAP (10_state.md R35). -/
  routeCap : s.routes.length ≤ s.params.routeCap
  /-- NODE_COUNT ≤ P_NODE_CAP (10_state.md R36). -/
  nodeCap : s.nodes.length ≤ s.params.nodeCap
  /-- The node store is what the route store's insertions build (10_state.md R42–R46, 40_lpm_trie.md R124). -/
  trie : s.nodes = build s.params.depthExtra s.routes
  /-- A reset in progress has discarded the pending command (70_reset_and_hazards.md R271, R273). -/
  discarded : s.resetting = true → s.pending = false
  /-- `rst` asserted keeps the reset in progress (R273). -/
  held : s.rst = true → s.resetting = true
  /-- STATUS is clear while BUSY = 1. -/
  busyClear : BusyClear s
  /-- ERR is set exactly with a nonzero ERRCODE (60_exceptions.md R236, R237). -/
  errCode : s.status.err = true ↔ s.status.errCode ≠ .none
  /-- FOUND is set only by an LPM_LOOKUP that completed without error (10_state.md R24). -/
  found : s.status.found = true → s.cmd = 0x00000002#32 ∧ s.status.err = false
  /-- TX_LEN is 0, or the length of an ARP or ICMP error frame (10_state.md R33). -/
  txLen : s.txLen = 0#16 ∨ s.txLen = 42#16 ∨ s.txLen = 50#16
  /-- TX_IF names an interface of the instance (10_state.md R34). -/
  txIf : s.txIf.toNat < s.params.nif

end Sys2Proof.Safety
end

