-- ==== Sys2Proof/Certificates/Slice0/Obligations.lean ====
section
/-! DEFINITION. The statements for the provers, each from a numbered rule of spec/ (OBLIGATIONS.json says which). -/

open Sys2Proof Sys2Proof.Machine Sys2Proof.Safety

/-! ### Encoding -/

/-- One word of every row of 30_encoding.md R92, and one word for each way R93 gives of not being legal. -/
def Obligations.CommandWordsDecode : Prop :=
  decode 0x00000001#32 = .ok .lpmInsert ∧ decode 0x00000002#32 = .ok .lpmLookup ∧
  decode 0x00000010#32 = .ok .csum ∧ decode 0x00000011#32 = .ok .csumFill ∧
  decode 0x00000020#32 = .ok .icmpEchoReply ∧ decode 0x00000121#32 = .ok (.icmpDestUnreach 1#8) ∧
  decode 0x00000322#32 = .ok (.icmpTimeExceeded 3#8) ∧ decode 0x00000030#32 = .ok (.arpRequest 0#8) ∧
  decode 0x0000FF31#32 = .ok (.arpReply 255#8) ∧
  decode 0x00000000#32 = .error .reservedOpcode ∧ decode 0x00000110#32 = .error .unusedIfid ∧
  decode 0x00010121#32 = .error .reservedBits

/-- Decoding the word of any command gives it back, and a word that decodes is the word of what it decodes to: no bit
of an encoding is dropped and each command has one word (30_encoding.md R90, R92, R95). -/
def Obligations.DecodeAndEncodeAgree : Prop :=
  (∀ i, decode (encode i) = .ok i) ∧ ∀ w i, decode w = .ok i → encode i = w

/-- 30_encoding.md R95: which words decode to which command, by mask and match, IFID being bits 15:8; every other word
is ILLEGAL. -/
def Obligations.DecodeByMaskAndMatch : Prop :=
  ∀ w : Word,
    (decode w = .ok .lpmInsert ↔ w &&& 0xFFFFFFFF#32 = 0x01#32) ∧
    (decode w = .ok .lpmLookup ↔ w &&& 0xFFFFFFFF#32 = 0x02#32) ∧
    (decode w = .ok .csum ↔ w &&& 0xFFFFFFFF#32 = 0x10#32) ∧
    (decode w = .ok .csumFill ↔ w &&& 0xFFFFFFFF#32 = 0x11#32) ∧
    (decode w = .ok .icmpEchoReply ↔ w &&& 0xFFFFFFFF#32 = 0x20#32) ∧
    (∀ k, decode w = .ok (.icmpDestUnreach k) ↔ w &&& 0xFFFF00FF#32 = 0x21#32 ∧ k = w.extractLsb' 8 8) ∧
    (∀ k, decode w = .ok (.icmpTimeExceeded k) ↔ w &&& 0xFFFF00FF#32 = 0x22#32 ∧ k = w.extractLsb' 8 8) ∧
    (∀ k, decode w = .ok (.arpRequest k) ↔ w &&& 0xFFFF00FF#32 = 0x30#32 ∧ k = w.extractLsb' 8 8) ∧
    (∀ k, decode w = .ok (.arpReply k) ↔ w &&& 0xFFFF00FF#32 = 0x31#32 ∧ k = w.extractLsb' 8 8)

/-- 30_encoding.md R93: the words that decode are the legal ones, and the step on a pending word that is not legal
completes with ILLEGAL and has no other effect (R94; for every such word, the reserved opcodes among them). That the
sequencer's turn comes with no input left, or with the input that gives it, is the model's choice (log entry 4). -/
def Obligations.IllegalWordOnlyReportsIllegal : Prop :=
  (∀ w, (∃ i, decode w = .ok i) ↔ CommandWord.legal w = true) ∧
  ∀ s : State, s.hazard = false → s.resetting = false → s.pending = true → CommandWord.legal s.cmd = false →
    (s.inputs = [] → step s = .next (errorState .illegal s)) ∧
    ∀ rest, s.inputs = .engine :: rest → step s = .next (errorState .illegal { s with inputs := rest })

/-! ### The step -/

/-- 30_encoding.md R100: a pending command whose word decodes to `i` is performed at the sequencer's turn, which comes
when no input is left or when the next input gives it (the model's choice of log entry 4). Nothing else is done around
`exec`. -/
def Obligations.StepPerformsPendingCommand : Prop :=
  ∀ (s : State) (i : Instr), s.hazard = false → s.resetting = false → s.pending = true → decode s.cmd = .ok i →
    (s.inputs = [] → step s = exec i s) ∧
    ∀ rest, s.inputs = .engine :: rest → step s = exec i { s with inputs := rest }

/-- The word placed by `withFetchWord` is what the very next step performs, as if the host's CMD write had been accepted
(10_state.md R29; the model's choice of log entry 12). -/
def Obligations.PlacedWordIsPerformedNext : Prop :=
  ∀ (s : State) (i : Instr),
    step (s.withFetchWord 32 (encode i).toNat) =
      exec i { s with
        cmd := encode i
        pending := true
        resetting := false
        rst := false
        hazard := false
        status := { done := false, err := false, found := false, ovr := s.status.ovr, errCode := .none } }

/-- 60_exceptions.md R251: an engine with no accepted command and no reset in progress holds all its state. That the
sequencer has the turn when no input is left is the model's choice (log entry 4). -/
def Obligations.IdleEngineHoldsItsState : Prop :=
  ∀ s : State, s.hazard = false → s.resetting = false → s.pending = false →
    (s.inputs = [] → step s = .next s) ∧
    ∀ rest, s.inputs = .engine :: rest → step s = .next { s with inputs := rest }

/-! ### LPM trie -/

/-- 40_lpm_trie.md R124, R126, R127: an insertion that fits completes; the route of ARG0–ARG3[7:0] is appended; the
node at depth `mlen(ARG1) + P_DEPTH_EXTRA` on the prefix's path takes its index; every link that stood stands and every
other node keeps its route; RES0 is the index, RES1 the number of nodes created. The frame: operands, frame memory,
TX_LEN and TX_IF. -/
def Obligations.InsertStoresRouteAtItsDepth : Prop :=
  ∀ s : State, Inv s → s.routes.length ≠ s.params.routeCap →
    s.nodes.length + need s.nodes s.arg0 (mlen s.arg1 + s.params.depthExtra.val) ≤ s.params.nodeCap →
    ∃ t n, exec .lpmInsert s = .next t ∧
      t.routes = s.routes ++ [⟨s.arg0, s.arg1, s.arg2, s.arg3.extractLsb' 0 8⟩] ∧
      follow t.nodes s.arg0 0 (mlen s.arg1 + s.params.depthExtra.val) 0 = some n ∧
      (nodeAt t.nodes n).route = some s.routes.length ∧
      (∀ m, m ≠ n → (nodeAt t.nodes m).route = (nodeAt s.nodes m).route) ∧
      (∀ m b c, childOf s.nodes m b = some c → childOf t.nodes m b = some c) ∧
      t.nodes.length = s.nodes.length + need s.nodes s.arg0 (mlen s.arg1 + s.params.depthExtra.val) ∧
      HasRes t (BitVec.ofNat 32 s.routes.length) (BitVec.ofNat 32 (t.nodes.length - s.nodes.length)) 0#32 0#32 ∧
      CompletedOk s t ∧ SameOperands s t ∧ SameMem s t ∧ SameTx s t

/-- 40_lpm_trie.md R125: `need(p, D) = D − d₀`, where a walk over `p` finds its nodes exactly up to depth `d₀`; an
insertion's walk creates exactly that many, and so does LPM_INSERT, which reports it in RES1. -/
def Obligations.InsertCreatesExactlyNeed : Prop :=
  (∀ nodes p d, need nodes p d ≤ d ∧
    (∀ k ≤ d, (follow nodes p 0 k 0).isSome ↔ k ≤ d - need nodes p d) ∧
    (insertPath nodes p d).created = need nodes p d ∧
    (insertPath nodes p d).nodes.length = nodes.length + need nodes p d) ∧
  ∀ s t : State, exec .lpmInsert s = .next t → t.status.err = false →
    t.res1 = BitVec.ofNat 32 (need s.nodes s.arg0 (depth s.params.depthExtra s.arg1)) ∧
    t.nodes.length = s.nodes.length + need s.nodes s.arg0 (depth s.params.depthExtra s.arg1)

/-- 40_lpm_trie.md R128, 60_exceptions.md R235: with the route store full LPM_INSERT reports ROUTE_FULL, else with too
few nodes left NODE_FULL, and nothing but STATUS changes. -/
def Obligations.InsertAtFullStoreChangesNothing : Prop :=
  ∀ s : State,
    (s.routes.length = s.params.routeCap → exec .lpmInsert s = .next (errorState .routeFull s)) ∧
    (s.routes.length ≠ s.params.routeCap →
      s.params.nodeCap < s.nodes.length + need s.nodes s.arg0 (depth s.params.depthExtra s.arg1) →
      exec .lpmInsert s = .next (errorState .nodeFull s))

/-- 40_lpm_trie.md R127: two stored routes reach the same node exactly when they have the same depth and agree at every
position walked, and a node holds the last route that reached it. -/
def Obligations.SameNodeExactlyOnSamePath : Prop :=
  ∀ s : State, Inv s → ∀ (r q : Nat) (e f : RouteEntry), s.routes[r]? = some e → s.routes[q]? = some f →
    ∃ n m, follow s.nodes e.pfx 0 (depth s.params.depthExtra e.mask) 0 = some n ∧
      follow s.nodes f.pfx 0 (depth s.params.depthExtra f.mask) 0 = some m ∧
      (n = m ↔ SamePath s.params.depthExtra e f) ∧
      ((nodeAt s.nodes n).route = some r ↔ Live s.params.depthExtra s.routes r)

/-- 40_lpm_trie.md R134 with R130 and R131: LPM_LOOKUP always completes; it returns the live route of depth at most 32
whose path bits the address has, of the greatest raw mask, in RES0–RES3 with FOUND = 1; when there is none, RES0–RES3
and FOUND are 0. -/
def Obligations.LookupReturnsGreatestLiveMatch : Prop :=
  ∀ s : State, Inv s → ∃ t, exec .lpmLookup s = .next t ∧ t.status.err = false ∧
    ((∃ r e, Candidate s.params.depthExtra s.routes s.arg0 r ∧ s.routes[r]? = some e ∧
        (∀ q f, Candidate s.params.depthExtra s.routes s.arg0 q → s.routes[q]? = some f → q ≠ r → f.mask < e.mask) ∧
        t.status.found = true ∧ t.res0 = e.pfx ∧ t.res1 = e.mask ∧ t.res2 = e.nextHop ∧
        t.res3.extractLsb' 0 8 = e.egressIf ∧ (t.res3.extractLsb' 8 24).toNat = r) ∨
      ((∀ r, ¬ Candidate s.params.depthExtra s.routes s.arg0 r) ∧
        t.status.found = false ∧ HasRes t 0#32 0#32 0#32 0#32))

/-- 40_lpm_trie.md R130: LPM_LOOKUP has no error of its own and completes in every state; its frame is everything but
RES0–RES3, FOUND and the completion bits of STATUS. In a state no run reaches, a route index without a route is a miss
(the model's choice of log entry 17). -/
def Obligations.LookupCompletesAndOnlyWritesResults : Prop :=
  ∀ s : State, ∃ t, exec .lpmLookup s = .next t ∧
    t.pending = false ∧ t.status.done = true ∧ t.status.err = false ∧ t.status.errCode = .none ∧
    (t.status.found = false → HasRes t 0#32 0#32 0#32 0#32) ∧
    SameOperands s t ∧ SameStores s t ∧ SameMem s t ∧ SameTx s t

/-- 40_lpm_trie.md R136, items 1 and 2: with P_DEPTH_EXTRA = 1 a route is returned only for an address that agrees with
its prefix at one position more than its mask length, and a route of mask length 32 never. -/
def Obligations.ExtraDepthNeedsOneMoreBit : Prop :=
  ∀ s t : State, Inv s → s.params.depthExtra = 1 → exec .lpmLookup s = .next t → t.status.found = true →
    mlen t.res1 ≤ 31 ∧ ∀ i ≤ mlen t.res1, s.arg0.getLsbD i = t.res0.getLsbD i

/-- 40_lpm_trie.md R121: the mask length counts the contiguous set bits from the low end. -/
def Obligations.MaskLengthCountsLowRun : Prop :=
  (∀ m : Word, mlen m ≤ 32 ∧ (∀ i < mlen m, m.getLsbD i = true) ∧
    (mlen m < 32 → m.getLsbD (mlen m) = false)) ∧
  mlen 0x00000000#32 = 0 ∧ mlen 0x000000FF#32 = 8 ∧ mlen 0x0000FFFF#32 = 16 ∧
  mlen 0x00FFFFFF#32 = 24 ∧ mlen 0xFFFFFFFF#32 = 32

/-- 40_lpm_trie.md R122: a dotted mask /n has mask length 8·floor(n/8). That the raw values of dotted masks, which
R132 compares, are ordered by n is no rule of the spec: it is inferred from 00_scope.md R14. -/
def Obligations.DottedMasksRoundToOctets : Prop :=
  (∀ n ≤ 32, mlen (dottedMask n) = 8 * (n / 8)) ∧
  (∀ n ≤ 32, ∀ k ≤ 32, dottedMask n < dottedMask k ↔ n < k) ∧
  dottedMask 25 = 0x80FFFFFF#32 ∧ dottedMask 20 = 0x00F0FFFF#32 ∧ mlen 0x80000000#32 = 0

/-- 10_state.md R45, R47: the nodes form a binary tree rooted at node 0; every other node is the child of exactly one
node under one bit; no node is deeper than 32 + P_DEPTH_EXTRA. -/
def Obligations.NodesFormATree : Prop :=
  ∀ s : State, Inv s →
    (∀ n b, childOf s.nodes n b ≠ some 0) ∧
    (∀ k, 0 < k → k < s.nodes.length → ∃! link : Nat × Bool, childOf s.nodes link.1 link.2 = some k) ∧
    (∀ n b c, childOf s.nodes n b = some c → n < s.nodes.length ∧ c < s.nodes.length) ∧
    (∀ k < s.nodes.length, ∃ p d, d ≤ 32 + s.params.depthExtra.val ∧ follow s.nodes p 0 d 0 = some k) ∧
    ∀ n r, (nodeAt s.nodes n).route = some r → r < s.routes.length

/-- 10_state.md R42, R45: no step changes a stored route or a child link once it is set, or lowers NODE_COUNT, except
the start of a reset, which empties both stores. -/
def Obligations.StoresOnlyGrowUntilReset : Prop :=
  ∀ s t : State, step s = .next t →
    ((∀ (r : Nat) (e : RouteEntry), s.routes[r]? = some e → t.routes[r]? = some e) ∧
      (∀ n b c, childOf s.nodes n b = some c → childOf t.nodes n b = some c) ∧
      s.nodes.length ≤ t.nodes.length) ∨
    (t.resetting = true ∧ t.routes = [] ∧ t.nodes = [⟨none, none, none⟩])

/-- 10_state.md R35, R36: ROUTE_COUNT changes only by a successful LPM_INSERT, by one, or by a reset, and so does
NODE_COUNT, by the number of nodes it creates; both stay within their capacities. -/
def Obligations.CountsChangeOnlyByInsertOrReset : Prop :=
  ∀ s t : State, Inv s → step s = .next t →
    (t.routes = s.routes ∧ t.nodes = s.nodes) ∨
    (decode s.cmd = .ok .lpmInsert ∧ s.pending = true ∧ t.status.err = false ∧
      t.routes.length = s.routes.length + 1 ∧ t.nodes.length = s.nodes.length + t.res1.toNat ∧
      t.routes.length ≤ t.params.routeCap ∧ t.nodes.length ≤ t.params.nodeCap) ∨
    (t.resetting = true ∧ t.routes.length = 0 ∧ t.nodes.length = 1)

/-- 40_lpm_trie.md R137: with the default node capacity, NODE_FULL never occurs: the route store fills first. -/
def Obligations.DefaultNodeCapacityNeverFull : Prop :=
  ∀ s : State, Inv s → s.params.nodeCap = 1 + 33 * s.params.routeCap →
    exec .lpmInsert s ≠ .next (errorState .nodeFull s)

/-! ### Checksum -/

/-- 41_checksum.md R163: with the range inside frame memory and every byte of it written, CSUM completes and RES0 is
the checksum of those bytes; nothing else but RES1–RES3 (0) and STATUS is written. -/
def Obligations.CsumReturnsChecksumOfRange : Prop :=
  ∀ (s : State) (bs : List Byte), s.arg0.toNat + s.arg1.toNat ≤ 0x1000 → bs.length = s.arg1.toNat →
    HasBytes s.fmem s.arg0.toNat bs →
    ∃ t, exec .csum s = .next t ∧ HasRes t ((internetCsum bs).setWidth 32) 0#32 0#32 0#32 ∧
      CompletedOk s t ∧ SameOperands s t ∧ SameStores s t ∧ SameMem s t ∧ SameTx s t

/-- 41_checksum.md R160, R161: the sum is the one's-complement sum of the 16-bit big-endian words, in 0..0xFFFF and
congruent to their sum modulo 0xFFFF, 0 only where that is 0; the checksum is its one's complement. -/
def Obligations.OnesSumIsOnesComplementSum : Prop :=
  (∀ bs : List Byte, onesSum bs = if wordSum bs = 0 then 0 else (wordSum bs - 1) % 0xFFFF + 1) ∧
  (∀ bs : List Byte, onesSum bs ≤ 0xFFFF ∧ (internetCsum bs).toNat = 0xFFFF - onesSum bs) ∧
  (∀ h l (bs : List Byte), wordSum (h :: l :: bs) = h.toNat * 256 + l.toNat + wordSum bs) ∧
  ∀ h : Byte, wordSum [] = 0 ∧ wordSum [h] = wordSum [h, 0#8]

/-- 41_checksum.md R167: `csum` is 0 exactly when `ones_sum` is 0xFFFF, `ones_sum` is 0 only when every byte is 0, and
exchanging two 4-byte fields at even offsets leaves `ones_sum` unchanged. -/
def Obligations.ChecksumExtremesAndSwap : Prop :=
  (∀ bs : List Byte, internetCsum bs = 0#16 ↔ onesSum bs = 0xFFFF) ∧
  (∀ bs : List Byte, onesSum bs = 0 ↔ ∀ b ∈ bs, b = 0#8) ∧
  ∀ pre mid post x y : List Byte, pre.length % 2 = 0 → mid.length % 2 = 0 → x.length = 4 → y.length = 4 →
    onesSum (pre ++ x ++ mid ++ y ++ post) = onesSum (pre ++ y ++ mid ++ x ++ post)

/-- 41_checksum.md R164: with range and field inside frame memory and every byte of the range written (those of the
field need not be), CSUM_FILL completes; the field at ARG2 takes the checksum of the range with the field zero, high
byte first; RES0 is the checksum; no other byte changes. -/
def Obligations.CsumFillStoresChecksum : Prop :=
  ∀ (s : State) (bs : List Byte), s.arg0.toNat + s.arg1.toNat ≤ 0x1000 → s.arg2.toNat + 2 ≤ 0x1000 →
    bs.length = s.arg1.toNat →
    (∀ j b, bs[j]? = some b →
      if s.arg0.toNat + j = s.arg2.toNat ∨ s.arg0.toNat + j = s.arg2.toNat + 1 then b = 0#8
      else s.fmem.readByte (s.arg0.toNat + j) = some b) →
    ∃ t, exec .csumFill s = .next t ∧
      HasBytes t.fmem s.arg2.toNat [(internetCsum bs).extractLsb' 8 8, (internetCsum bs).extractLsb' 0 8] ∧
      SameOutside s.arg2.toNat 2 s t ∧
      HasRes t ((internetCsum bs).setWidth 32) 0#32 0#32 0#32 ∧
      CompletedOk s t ∧ SameOperands s t ∧ SameStores s t ∧ SameTx s t

/-- 41_checksum.md R165: after CSUM_FILL with the field inside the range at an even distance from its start, a CSUM of
the range gives 0. -/
def Obligations.CsumAfterFillIsZero : Prop :=
  ∀ s t : State, exec .csumFill s = .next t → t.status.err = false →
    s.arg0.toNat ≤ s.arg2.toNat → s.arg2.toNat + 2 ≤ s.arg0.toNat + s.arg1.toNat →
    (s.arg2.toNat - s.arg0.toNat) % 2 = 0 →
    ∃ u, exec .csum t = .next u ∧ u.status.err = false ∧ u.res0 = 0#32

/-- 41_checksum.md R166: where CSUM gives 0, changing any one byte of its range to another value makes the next CSUM of
the range complete with a result that is not 0. -/
def Obligations.OneByteCorruptionIsSeen : Prop :=
  ∀ (s t : State) (a : Nat) (c : Byte), exec .csum s = .next t → t.status.err = false → t.res0 = 0#32 →
    s.arg0.toNat ≤ a → a < s.arg0.toNat + s.arg1.toNat → s.fmem.readByte a ≠ some c →
    ∃ u, exec .csum { s with fmem := s.fmem.writeByte a c } = .next u ∧ u.status.err = false ∧ u.res0 ≠ 0#32

/-- 41_checksum.md R162: a range or a field that leaves frame memory, computed without wrap-around, completes with
RANGE and nothing else changes; an empty range is legal at any start up to 0x1000. -/
def Obligations.ChecksumRangesAreChecked : Prop :=
  ∀ s : State,
    (0x1000 < s.arg0.toNat + s.arg1.toNat → exec .csum s = .next (errorState .range s)) ∧
    (0x1000 < s.arg0.toNat + s.arg1.toNat ∨ 0x1000 < s.arg2.toNat + 2 →
      exec .csumFill s = .next (errorState .range s)) ∧
    (s.arg1 = 0#32 → s.arg0.toNat ≤ 0x1000 →
      (∃ t, exec .csum s = .next t ∧ t.status.err = false ∧ t.res0 = 0xFFFF#32) ∧
      (s.arg2.toNat + 2 ≤ 0x1000 → ∃ t, exec .csumFill s = .next t ∧ t.status.err = false ∧ t.res0 = 0xFFFF#32))

/-! ### Frame synthesizer -/

/-- 42_frame_synth.md R184: an echo reply is built in place. RX[26..34) has the addresses exchanged, RX[34..36) is 0,
RX[36..38) is the checksum of the whole ICMP message with its type, code and checksum 0; no other byte changes; RES0 is
the checksum. The bytes 34..38 of the request need not be written. -/
def Obligations.EchoReplyIsBuiltInPlace : Prop :=
  ∀ (s : State) (th tl : Byte) (src dst rest : List Byte),
    42 ≤ s.rxLen.toNat → s.rxLen.toNat ≤ 2048 →
    HasBytes s.fmem 16 [th, tl] → 28 ≤ th.toNat * 256 + tl.toNat →
    14 + (th.toNat * 256 + tl.toNat) ≤ s.rxLen.toNat →
    src.length = 4 → HasBytes s.fmem 26 src → dst.length = 4 → HasBytes s.fmem 30 dst →
    rest.length + 24 = th.toNat * 256 + tl.toNat → HasBytes s.fmem 38 rest →
    let c := internetCsum ([0x00#8, 0x00#8, 0x00#8, 0x00#8] ++ rest)
    ∃ t, exec .icmpEchoReply s = .next t ∧
      HasBytes t.fmem 26 (dst ++ src ++ [0x00#8, 0x00#8, c.extractLsb' 8 8, c.extractLsb' 0 8]) ∧
      SameOutside 26 12 s t ∧ HasRes t (c.setWidth 32) 0#32 0#32 0#32 ∧
      CompletedOk s t ∧ SameOperands s t ∧ SameStores s t ∧ SameTx s t

/-- 42_frame_synth.md R184, 60_exceptions.md R235: the errors of ICMP_ECHO_REPLY in their order, each changing nothing
but STATUS. -/
def Obligations.EchoReplyErrors : Prop :=
  ∀ s : State,
    (2048 < s.rxLen.toNat → exec .icmpEchoReply s = .next (errorState .range s)) ∧
    (s.rxLen.toNat < 42 → exec .icmpEchoReply s = .next (errorState .shortFrame s)) ∧
    ∀ th tl : Byte, 42 ≤ s.rxLen.toNat → s.rxLen.toNat ≤ 2048 → HasBytes s.fmem 16 [th, tl] →
      (th.toNat * 256 + tl.toNat < 28 ∨ s.rxLen.toNat < 14 + (th.toNat * 256 + tl.toNat)) →
      exec .icmpEchoReply s = .next (errorState .badTotlen s)

/-- 41_checksum.md R167 with 42_frame_synth.md R184: the address swap of an echo reply keeps the IP header checksum:
the one's-complement sum of RX[14..34) is the same after as before. -/
def Obligations.EchoReplyKeepsIpHeaderSum : Prop :=
  ∀ (s t : State) (before after : List Byte), exec .icmpEchoReply s = .next t →
    before.length = 20 → HasBytes s.fmem 14 before → after.length = 20 → HasBytes t.fmem 14 after →
    onesSum after = onesSum before

/-- 42_frame_synth.md R185, R186, R187: with a good interface, 34 ≤ RX_LEN ≤ 2048 and the bytes read written, both
ICMP error commands complete: TX[0..50) is the frame of R185 with type 3 or 11, no other byte changes, TX_LEN = 50,
TX_IF = IFID, RES0 and RES1 the two checksums. -/
def Obligations.IcmpErrorFrameIsBuilt : Prop :=
  ∀ (s : State) (k : Byte) (e : IfEntry) (smac orig osrc : List Byte),
    k.toNat < s.params.nif → s.iftab[k.toNat]? = some e → 34 ≤ s.rxLen.toNat → s.rxLen.toNat ≤ 2048 →
    smac.length = 6 → HasBytes s.fmem 6 smac → orig.length = 8 → HasBytes s.fmem 14 orig →
    osrc.length = 4 → HasBytes s.fmem 26 osrc →
    ∀ p ∈ [(Instr.icmpDestUnreach k, 3#8), (Instr.icmpTimeExceeded k, 11#8)],
    let imac := wire e.macLo ++ [e.macHi.extractLsb' 0 8, e.macHi.extractLsb' 8 8]
    let ci := internetCsum (errorHeader s.params.errIpId 0#16 (wire e.ip) osrc)
    let cc := internetCsum (errorMessage p.2 0#16 orig)
    ∃ t, exec p.1 s = .next t ∧
      HasBytes t.fmem 0x800 (smac ++ imac ++ [0x08#8, 0x00#8] ++
        errorHeader s.params.errIpId ci (wire e.ip) osrc ++ errorMessage p.2 cc orig) ∧
      SameOutside 0x800 50 s t ∧ t.txLen = 50#16 ∧ t.txIf = k ∧
      HasRes t (ci.setWidth 32) (cc.setWidth 32) 0#32 0#32 ∧
      CompletedOk s t ∧ SameOperands s t ∧ SameStores s t

/-- 42_frame_synth.md R188: with a good interface ARP_REQUEST completes: TX[0..42) is the broadcast request for ARG0,
no other byte changes, TX_LEN = 42, TX_IF = IFID, RES0–RES3 = 0. -/
def Obligations.ArpRequestFrameIsBuilt : Prop :=
  ∀ (s : State) (k : Byte) (e : IfEntry), k.toNat < s.params.nif → s.iftab[k.toNat]? = some e →
    let imac := wire e.macLo ++ [e.macHi.extractLsb' 0 8, e.macHi.extractLsb' 8 8]
    ∃ t, exec (.arpRequest k) s = .next t ∧
      HasBytes t.fmem 0x800 ([0xFF#8, 0xFF#8, 0xFF#8, 0xFF#8, 0xFF#8, 0xFF#8] ++ imac ++
        [0x08#8, 0x06#8, 0x00#8, 0x01#8, 0x08#8, 0x00#8, 0x06#8, 0x04#8, 0x00#8, 0x01#8] ++ imac ++ wire e.ip ++
        [0x00#8, 0x00#8, 0x00#8, 0x00#8, 0x00#8, 0x00#8] ++ wire s.arg0) ∧
      SameOutside 0x800 42 s t ∧ t.txLen = 42#16 ∧ t.txIf = k ∧ HasRes t 0#32 0#32 0#32 0#32 ∧
      CompletedOk s t ∧ SameOperands s t ∧ SameStores s t

/-- 42_frame_synth.md R189: with a good interface, 42 ≤ RX_LEN ≤ 2048 and the bytes read written, ARP_REPLY completes:
TX[0..42) is the reply to the requester, no other byte changes, TX_LEN = 42, TX_IF = IFID, RES0–RES3 = 0. -/
def Obligations.ArpReplyFrameIsBuilt : Prop :=
  ∀ (s : State) (k : Byte) (e : IfEntry) (rmac rsha rspa : List Byte),
    k.toNat < s.params.nif → s.iftab[k.toNat]? = some e → 42 ≤ s.rxLen.toNat → s.rxLen.toNat ≤ 2048 →
    rmac.length = 6 → HasBytes s.fmem 6 rmac → rsha.length = 6 → HasBytes s.fmem 22 rsha →
    rspa.length = 4 → HasBytes s.fmem 28 rspa →
    let imac := wire e.macLo ++ [e.macHi.extractLsb' 0 8, e.macHi.extractLsb' 8 8]
    ∃ t, exec (.arpReply k) s = .next t ∧
      HasBytes t.fmem 0x800 (rmac ++ imac ++
        [0x08#8, 0x06#8, 0x00#8, 0x01#8, 0x08#8, 0x00#8, 0x06#8, 0x04#8, 0x00#8, 0x02#8] ++ imac ++ wire e.ip ++
        rsha ++ rspa) ∧
      SameOutside 0x800 42 s t ∧ t.txLen = 42#16 ∧ t.txIf = k ∧ HasRes t 0#32 0#32 0#32 0#32 ∧
      CompletedOk s t ∧ SameOperands s t ∧ SameStores s t

/-- 60_exceptions.md R232, R234, R235: the four TXBUF builders report BAD_IF before anything else; then, for those that
read RXBUF, RANGE over 2048 bytes and SHORT_FRAME under their minimum. Nothing but STATUS changes. -/
def Obligations.TxBuilderErrors : Prop :=
  ∀ (s : State) (k : Byte),
    (s.params.nif ≤ k.toNat →
      exec (.icmpDestUnreach k) s = .next (errorState .badIf s) ∧
      exec (.icmpTimeExceeded k) s = .next (errorState .badIf s) ∧
      exec (.arpRequest k) s = .next (errorState .badIf s) ∧
      exec (.arpReply k) s = .next (errorState .badIf s)) ∧
    (k.toNat < s.params.nif → 2048 < s.rxLen.toNat →
      exec (.icmpDestUnreach k) s = .next (errorState .range s) ∧
      exec (.icmpTimeExceeded k) s = .next (errorState .range s) ∧
      exec (.arpReply k) s = .next (errorState .range s)) ∧
    (k.toNat < s.params.nif → s.rxLen.toNat < 34 →
      exec (.icmpDestUnreach k) s = .next (errorState .shortFrame s) ∧
      exec (.icmpTimeExceeded k) s = .next (errorState .shortFrame s)) ∧
    (k.toNat < s.params.nif → s.rxLen.toNat < 42 →
      exec (.arpReply k) s = .next (errorState .shortFrame s))

/-- 42_frame_synth.md R192 with R184 and 41_checksum.md R167: the checksums of the frames the ICMP builders leave. After
ICMP_DEST_UNREACH or ICMP_TIME_EXCEEDED, CSUM 0x80E, 20 (IP header) and CSUM 0x822, 16 (ICMP message) both give 0. After
ICMP_ECHO_REPLY of a frame of IP total length T, CSUM 0x022, T − 20 (ICMP message) gives 0, and CSUM 0x00E, 20 (IP header,
which this command does not fill) gives what it gave before: a header that was valid stays valid. -/
def Obligations.BuiltFramesCheckToZero : Prop :=
  ∀ (s t : State) (k : Byte), t.status.err = false →
    (exec (.icmpDestUnreach k) s = .next t ∨ exec (.icmpTimeExceeded k) s = .next t →
      ∀ p ∈ [(0x80E#32, 20#32), (0x822#32, 16#32)],
        ∃ u, exec .csum { t with arg0 := p.1, arg1 := p.2 } = .next u ∧ u.status.err = false ∧ u.res0 = 0#32) ∧
    (exec .icmpEchoReply s = .next t →
      (∃ th tl : Byte, HasBytes s.fmem 16 [th, tl] ∧
        ∃ u, exec .csum { t with arg0 := 0x022#32, arg1 := BitVec.ofNat 32 (th.toNat * 256 + tl.toNat - 20) } = .next u ∧
          u.status.err = false ∧ u.res0 = 0#32) ∧
      ∀ v, exec .csum { s with arg0 := 0x00E#32, arg1 := 20#32 } = .next v →
        ∃ u, exec .csum { t with arg0 := 0x00E#32, arg1 := 20#32 } = .next u ∧ u.status.err = false ∧ u.res0 = v.res0)

/-- 10_state.md R33, R34: TX_LEN and TX_IF are written by exactly the four TXBUF builders when they complete without
error, with 50 or 42 and the command's IFID. -/
def Obligations.TxRegistersNameTheLastFrame : Prop :=
  ∀ (i : Instr) (s t : State), exec i s = .next t →
    (t.status.err = true → SameTx s t) ∧
    (t.status.err = false →
      match i with
      | .icmpDestUnreach k | .icmpTimeExceeded k => t.txLen = 50#16 ∧ t.txIf = k
      | .arpRequest k | .arpReply k => t.txLen = 42#16 ∧ t.txIf = k
      | .lpmInsert | .lpmLookup | .csum | .csumFill | .icmpEchoReply => SameTx s t)

/-! ### Completion -/

/-- 10_state.md R30, R32, R41: no command writes ARG0–ARG3, CMD, RX_LEN, IFTAB, CTRL or OVR. -/
def Obligations.CommandsNeverWriteOperands : Prop :=
  ∀ (i : Instr) (s t : State), exec i s = .next t → SameOperands s t

/-- 60_exceptions.md R230, R236, R237: a command that completes either completes without error (BUSY 0, DONE 1, ERR 0,
ERRCODE 0, FOUND as before but for LPM_LOOKUP) or with one nonzero code and no effect except on STATUS. -/
def Obligations.CompletionIsAllOrOneError : Prop :=
  ∀ (i : Instr) (s t : State), exec i s = .next t →
    (t.pending = false ∧ t.status.done = true ∧ t.status.err = false ∧ t.status.errCode = .none ∧
      t.status.ovr = s.status.ovr ∧ (i ≠ .lpmLookup → t.status.found = s.status.found)) ∨
    ∃ e, e ≠ .none ∧ t = errorState e s

/-- 20_memory.md R63, 60_exceptions.md R230: a command never refuses, and stops only on a byte of frame memory that has
no value; CSUM does stop when its range holds one. -/
def Obligations.CommandsStopOnlyOnValuelessBytes : Prop :=
  (∀ (i : Instr) (s : State), (∃ t, exec i s = .next t) ∨ ∃ a, exec i s = .fault (.unwrittenByte a) ∧
    s.fmem.readByte a = none) ∧
  ∀ s : State, s.arg0.toNat + s.arg1.toNat ≤ 0x1000 →
    (∃ j < s.arg1.toNat, s.fmem.readByte (s.arg0.toNat + j) = none) →
    ∃ a, exec .csum s = .fault (.unwrittenByte a)

/-! ### Host bus and STATUS -/

/-- 10_state.md R29: a CMD write while BUSY = 0 latches the word and sets BUSY, and clears DONE, ERR, FOUND and
ERRCODE. -/
def Obligations.CmdWriteWhenIdleIsAccepted : Prop :=
  ∀ (s : State) (w : Word) (rest : List Input), s.hazard = false → s.pending = false → s.resetting = false →
    s.inputs = .access (.write (s.params.base + 0x00C) .four w) :: rest →
    step s = .next { s with
      inputs := rest
      resp := some .written
      cmd := w
      pending := true
      status := { done := false, err := false, found := false, ovr := s.status.ovr, errCode := .none } }

/-- 60_exceptions.md R238: a CMD write while a command is pending or a reset is in progress is not accepted: it sets
OVR and changes neither CMD nor the command in progress. -/
def Obligations.CmdWriteWhileBusySetsOvr : Prop :=
  ∀ (s : State) (w : Word) (rest : List Input), s.hazard = false → s.pending = true ∨ s.resetting = true →
    s.inputs = .access (.write (s.params.base + 0x00C) .four w) :: rest →
    step s = .next { s with inputs := rest, resp := some .written, status := { s.status with ovr := true } }

/-- 10_state.md R24: a STATUS write clears DONE where bit 1 is 1 and OVR where bit 4 is 1; it changes no other field and
no other state. That it does so during a reset too, where 70_reset_and_hazards.md R273 and R281 differ, is the model's
reading (log entry 14). -/
def Obligations.StatusWriteClearsOnlyDoneAndOvr : Prop :=
  ∀ (s : State) (w : Word) (rest : List Input), s.hazard = false →
    s.inputs = .access (.write (s.params.base + 0x008) .four w) :: rest →
    ∃ t, step s = .next t ∧
      t = { s with
        inputs := rest
        resp := some .written
        status := { s.status with done := t.status.done, ovr := t.status.ovr } } ∧
      (t.status.done = true ↔ s.status.done = true ∧ w.getLsbD 1 = false) ∧
      (t.status.ovr = true ↔ s.status.ovr = true ∧ w.getLsbD 4 = false)

/-- 10_state.md R25: when a STATUS write and the completion of a command come together, DONE reads 1 afterwards. The
model has them together as the write and then the sequencer's turn (log entry 16). -/
def Obligations.CompletionWinsOverClearingDone : Prop :=
  ∀ (s t : State) (w : Word) (rest : List Input), s.resetting = false → s.pending = true →
    s.inputs = .access (.write (s.params.base + 0x008) .four w) :: .engine :: rest →
    Host.Core.run core 2 s = .next t → t.status.done = true

/-- 60_exceptions.md R240, R241: `irq` is DONE and IRQ_EN; it is 1 after every completion with IRQ_EN set, and 0 after
DONE is cleared, after the next acceptance and after a reset starts. -/
def Obligations.IrqFollowsDoneAndEnable : Prop :=
  (∀ s : State, s.irq = true ↔ s.status.done = true ∧ s.irqEn = true) ∧
  (∀ (i : Instr) (s t : State), exec i s = .next t → t.irq = s.irqEn) ∧
  ∀ s : State, (writeStatus 0x00000002#32 s).irq = false ∧ (∀ w, (accept w s).irq = false) ∧
    (startReset s).irq = false

/-- 70_reset_and_hazards.md R271, R272: asserting `rst`, or writing 1 to CTRL bit 0 at any time, puts every piece of
state at its reset value and the reset in progress, with NODE_COUNT 1 and no byte of frame memory holding a value. That
a soft reset during a reset does so too, OVR included, is the model's reading (log entry 13). -/
def Obligations.ResetPutsEveryRegisterAtItsResetValue : Prop :=
  ∀ (s : State) (rest : List Input), s.hazard = false →
    (s.inputs = .rstAssert :: rest ∨ ∃ w : Word, w.getLsbD 0 = true ∧
      s.inputs = .access (.write (s.params.base + 0x004) .four w) :: rest) →
    ∃ t, step s = .next t ∧ t.irqEn = false ∧ t.status = ⟨false, false, false, false, .none⟩ ∧ t.busy = true ∧
      t.irq = false ∧ t.cmd = 0#32 ∧ t.arg0 = 0#32 ∧ t.arg1 = 0#32 ∧ t.arg2 = 0#32 ∧ t.arg3 = 0#32 ∧
      HasRes t 0#32 0#32 0#32 0#32 ∧ t.rxLen = 0#16 ∧ t.txLen = 0#16 ∧ t.txIf = 0#8 ∧
      t.iftab = List.replicate s.params.nif ⟨0#32, 0#32, 0#16⟩ ∧ t.routes = [] ∧ t.nodes = [⟨none, none, none⟩] ∧
      (∀ a, t.fmem.readByte a = none) ∧ t.pending = false ∧ t.resetting = true ∧ t.params = s.params

/-- 70_reset_and_hazards.md R273: at the sequencer's turn a reset in progress ends with BUSY = 0 once `rst` is
deasserted, and goes on while it is asserted; nothing else changes. The model's choices in it: that the turn comes with
no input left, or with the input that gives it (log entry 4); that the level of `rst` holds the reset (log entry 19);
that an IRQ_EN the host wrote during the reset stays (log entry 20). -/
def Obligations.ResetEndsOnlyWithRstDeasserted : Prop :=
  ∀ s : State, s.hazard = false → s.resetting = true →
    (s.inputs = [] →
      (s.rst = true → step s = .next s) ∧ (s.rst = false → step s = .next { s with resetting := false })) ∧
    ∀ rest, s.inputs = .engine :: rest →
      (s.rst = true → step s = .next { s with inputs := rest }) ∧
      (s.rst = false → step s = .next { s with inputs := rest, resetting := false })

/-- 70_reset_and_hazards.md R274: with the stores as a reset leaves them, every LPM_LOOKUP completes as a miss. -/
def Obligations.LookupsMissOnTheEmptyTrie : Prop :=
  ∀ s : State, s.routes = [] → s.nodes = [⟨none, none, none⟩] →
    ∃ t, exec .lpmLookup s = .next t ∧ t.status.found = false ∧ t.status.err = false ∧
      HasRes t 0#32 0#32 0#32 0#32

/-- 20_memory.md R67: a legal write of an idle engine's frame memory at FMEM address `a` stores the value's bytes, lowest
first, and changes no other byte and no register, store or other state; a read of the same width then answers that
value. -/
def Obligations.FrameMemoryIsLittleEndian : Prop :=
  ∀ (s : State) (a : Nat) (w : Width) (v : Word) (rest : List Input),
    s.hazard = false → s.pending = false → s.resetting = false → a < 0x1000 → a % w.bytes = 0 →
    s.inputs = .access (.write (s.params.base + 0x1000 + a) w v) ::
      .access (.read (s.params.base + 0x1000 + a) w) :: rest →
    ∃ t u, step s = .next t ∧ step t = .next u ∧
      t = { s with
        fmem := t.fmem
        inputs := .access (.read (s.params.base + 0x1000 + a) w) :: rest
        resp := some .written } ∧
      (∀ j < w.bytes, t.fmem.readByte (a + j) = some (v.extractLsb' (8 * j) 8)) ∧ SameOutside a w.bytes s t ∧
      u.fmem = t.fmem ∧ u.resp = some (.value (BitVec.ofNat 32 (v.toNat % 2 ^ (8 * w.bytes))))

/-- 20_memory.md R66, R67, R68: in the register area anything but an aligned 4-byte access, and in the frame memory area
a misaligned access, is a fault of the host; every other access of the window completes. -/
def Obligations.IllegalAccessIsABusError : Prop :=
  ∀ (s : State) (acc : Access) (rest : List Input) (off : Nat), s.hazard = false → off < 0x2000 →
    acc.addr = s.params.base + off → s.inputs = .access acc :: rest →
    ((off < 0x1000 ∧ (acc.width ≠ .four ∨ off % 4 ≠ 0)) ∨ (0x1000 ≤ off ∧ off % acc.width.bytes ≠ 0) →
      step s = .fault (.busError acc.addr)) ∧
    ((off < 0x1000 ∧ acc.width = .four ∧ off % 4 = 0) ∨ (0x1000 ≤ off ∧ off % acc.width.bytes = 0) →
      ∃ t, step s = .next t)

/-- 20_memory.md R64: an aligned 4-byte read of a reserved offset of the register area answers 0, and a write changes
nothing. The reserved offsets are those of R61 and 10_state.md section 2. That this holds of writes during a reset (log
entry 14) and of reads while BUSY = 1 (log entry 15) is the model's reading. -/
def Obligations.ReservedOffsetsReadZeroAndIgnoreWrites : Prop :=
  ∀ (s : State) (off : Nat) (v : Word) (rest : List Input), s.hazard = false → off % 4 = 0 →
    (off = 0x03C ∨ (0x054 ≤ off ∧ off < 0x100) ∨ (0x200 ≤ off ∧ off < 0x1000) ∨
      (0x100 ≤ off ∧ off < 0x200 ∧ (s.params.nif ≤ (off - 0x100) / 16 ∨ off % 16 = 12))) →
    (s.inputs = .access (.read (s.params.base + off) .four) :: rest →
      step s = .next { s with inputs := rest, resp := some (.value 0#32) }) ∧
    (s.inputs = .access (.write (s.params.base + off) .four v) :: rest →
      step s = .next { s with inputs := rest, resp := some .written })

/-- 10_state.md R22, R37, R38, R39: ID, CFG, ROUTE_CAP and NODE_CAP always answer the instance's constants, and writes to
them are ignored; that they are ignored during a reset too is the model's reading (log entry 14). -/
def Obligations.ConstantRegistersReadTheInstance : Prop :=
  ∀ (s : State) (v : Word) (rest : List Input), s.hazard = false → s.params.legal →
    (∀ p ∈ [(0x000, 0x4C504D01), (0x048, s.params.nif + 256 * s.params.depthExtra.val),
        (0x04C, s.params.routeCap), (0x050, s.params.nodeCap)],
      (s.inputs = .access (.read (s.params.base + p.1) .four) :: rest →
        ∃ x : Word, x.toNat = p.2 ∧ step s = .next { s with inputs := rest, resp := some (.value x) }) ∧
      (s.inputs = .access (.write (s.params.base + p.1) .four v) :: rest →
        step s = .next { s with inputs := rest, resp := some .written }))

/-- 70_reset_and_hazards.md R281, R282: while BUSY = 1 a write of ARG0–ARG3, RX_LEN, an IFTAB register or frame memory
sets the hazard mark, and every step of a run with the mark is a fault (the stop is the model's form of R282's fault,
log entry 9). -/
def Obligations.HazardWriteEndsTheRun : Prop :=
  (∀ (s : State) (w : Width) (v : Word) (off : Nat) (rest : List Input), s.hazard = false → s.busy = true →
    ((w = .four ∧ off ∈ [0x010, 0x014, 0x018, 0x01C, 0x030]) ∨
      (w = .four ∧ ∃ k < s.params.nif, k < 16 ∧ off ∈ [0x100 + 16 * k, 0x104 + 16 * k, 0x108 + 16 * k]) ∨
      (0x1000 ≤ off ∧ off < 0x2000 ∧ off % w.bytes = 0)) →
    s.inputs = .access (.write (s.params.base + off) w v) :: rest →
    ∃ t, step s = .next t ∧ t.hazard = true) ∧
  ∀ s : State, s.hazard = true → step s = .fault .hazard

/-- 20_memory.md R71, 70_reset_and_hazards.md R281: a read has no side effect on the engine: everything but the bus
response and the model's count of free bytes (log entries 6 and 7) is as before, whatever BUSY is. -/
def Obligations.ReadsHaveNoSideEffect : Prop :=
  ∀ (s t : State) (addr : Nat) (w : Width) (rest : List Input), s.inputs = .access (.read addr w) :: rest →
    step s = .next t → t = { s with inputs := rest, resp := t.resp, draws := t.draws } ∧
      ∃ v, t.resp = some (.value v)

/-- 70_reset_and_hazards.md R281, 10_state.md R23, R24, R29: whatever BUSY is, reads of CTRL, STATUS and CMD answer what
the registers hold: IRQ_EN in bit 1; BUSY, DONE, ERR, FOUND, OVR and ERRCODE at R24's bits; the last accepted word. A
write of CTRL with bit 0 clear sets IRQ_EN to bit 1 and changes nothing else, so that the next read answers it;
that it does so during a reset too is the model's reading (log entry 20). -/
def Obligations.ControlRegistersAreAlwaysReadable : Prop :=
  ∀ (s : State) (rest : List Input), s.hazard = false →
    (s.inputs = .access (.read (s.params.base + 0x004) .four) :: rest →
      ∃ x : Word, step s = .next { s with inputs := rest, resp := some (.value x) } ∧
        x.toNat = 2 * s.irqEn.toNat) ∧
    (s.inputs = .access (.read (s.params.base + 0x008) .four) :: rest →
      ∃ x : Word, step s = .next { s with inputs := rest, resp := some (.value x) } ∧
        x.toNat = s.busy.toNat + 2 * s.status.done.toNat + 4 * s.status.err.toNat + 8 * s.status.found.toNat +
          16 * s.status.ovr.toNat + 256 * s.status.errCode.code.toNat) ∧
    (s.inputs = .access (.read (s.params.base + 0x00C) .four) :: rest →
      step s = .next { s with inputs := rest, resp := some (.value s.cmd) }) ∧
    ∀ v : Word, v.getLsbD 0 = false → s.inputs = .access (.write (s.params.base + 0x004) .four v) :: rest →
      step s = .next { s with inputs := rest, resp := some .written, irqEn := v.getLsbD 1 }

/-- 10_state.md R30, R32, R40: on an idle engine ARG0–ARG3, RX_LEN and the IFTAB registers take what is written, reserved
bits aside, and answer it to the next read; a write changes no other register. -/
def Obligations.OperandRegistersReadBack : Prop :=
  ∀ (s : State) (v : Word) (off : Nat) (rest : List Input),
    s.hazard = false → s.pending = false → s.resetting = false → s.iftab.length = s.params.nif →
    (off ∈ [0x010, 0x014, 0x018, 0x01C, 0x030] ∨
      ∃ k < s.params.nif, k < 16 ∧ off ∈ [0x100 + 16 * k, 0x104 + 16 * k, 0x108 + 16 * k]) →
    s.inputs = .access (.write (s.params.base + off) .four v) ::
      .access (.read (s.params.base + off) .four) :: rest →
    ∃ t u, step s = .next t ∧ step t = .next u ∧
      u.resp = some (.value (if off = 0x030 ∨ (0x100 ≤ off ∧ off % 16 = 8) then v &&& 0x0000FFFF#32 else v)) ∧
      t = { s with
        arg0 := if off = 0x010 then v else s.arg0
        arg1 := if off = 0x014 then v else s.arg1
        arg2 := if off = 0x018 then v else s.arg2
        arg3 := if off = 0x01C then v else s.arg3
        rxLen := if off = 0x030 then v.extractLsb' 0 16 else s.rxLen
        iftab := t.iftab
        inputs := t.inputs
        resp := some .written } ∧
      t.iftab.length = s.iftab.length ∧
      ∀ (k : Nat) (e : IfEntry), s.iftab[k]? = some e → t.iftab[k]? = some
        { ip := if off = 0x100 + 16 * k then v else e.ip
          macLo := if off = 0x104 + 16 * k then v else e.macLo
          macHi := if off = 0x108 + 16 * k then v.extractLsb' 0 16 else e.macHi }

/-- 30_encoding.md R102: `WAIT` reads STATUS; it is over when BUSY = 0, and else the host reads again after the
sequencer's turn (the model's choice of log entry 5). -/
def Obligations.WaitPollsUntilNotBusy : Prop :=
  ∀ (s : State) (rest : List Input), s.hazard = false → s.inputs = .wait :: rest →
    ∃ t v, step s = .next t ∧ t.resp = some (.value v) ∧ (v.getLsbD 0 = true ↔ s.busy = true) ∧
      t = { s with resp := t.resp, inputs := if v.getLsbD 0 then .engine :: .wait :: rest else rest }

/-! ### The whole machine -/

/-- 10_state.md R20: no step changes the parameters of the instance, which the state carries (log entry 1). -/
def Obligations.ParametersNeverChange : Prop :=
  ∀ s t : State, step s = .next t → t.params = s.params

/-- The state after reset meets the invariant, for every legal instance. -/
def Obligations.ResetMeetsTheInvariant : Prop :=
  Inv State.reset ∧ ∀ p : Params, p.legal → Inv (State.resetWith p)

/-- Every step keeps the invariant, from every state that meets it. -/
def Obligations.StepKeepsTheInvariant : Prop :=
  ∀ s t : State, Inv s → step s = .next t → Inv t

/-! ### Read-only registers -/

/-- 10_state.md R31, R33, R34, R35, R36: on an idle engine RES0–RES3, TX_LEN, TX_IF, ROUTE_COUNT and NODE_COUNT, each at
its offset, answer the four results, the length and interface of the last frame, and the numbers of routes and nodes,
zero-extended; a write of any of them changes nothing. That the write is ignored during a reset too is the model's
reading (log entry 14). -/
def Obligations.ReadOnlyRegistersReadTheirValues : Prop :=
  (∀ (s : State) (rest : List Input), Inv s → s.hazard = false → s.pending = false → s.resetting = false →
    ∀ p ∈ [(0x020, s.res0.toNat), (0x024, s.res1.toNat), (0x028, s.res2.toNat), (0x02C, s.res3.toNat),
      (0x034, s.txLen.toNat), (0x038, s.txIf.toNat), (0x040, s.routes.length), (0x044, s.nodes.length)],
    s.inputs = .access (.read (s.params.base + p.1) .four) :: rest →
      ∃ x : Word, x.toNat = p.2 ∧ step s = .next { s with inputs := rest, resp := some (.value x) }) ∧
  ∀ (s : State) (v : Word) (rest : List Input), s.hazard = false →
    ∀ off ∈ [0x020, 0x024, 0x028, 0x02C, 0x034, 0x038, 0x040, 0x044],
    s.inputs = .access (.write (s.params.base + off) .four v) :: rest →
      step s = .next { s with inputs := rest, resp := some .written }
end

