-- ==== Sys2Proof/Laws/Memory.lean ====
section
/-! SUPPORT. Frame memory: a read after a write, the canonical form, and what `MemRead` and `MemWrite` do. -/

namespace Sys2Proof.Machine

open Sys2Proof.Safety

/-! ### One byte -/

theorem Memory.readByte_writeByte (m : Memory) (a x : Nat) (b : Byte) :
    (m.writeByte a b).readByte x = if x = a then some b else m.readByte x := by
  induction m with
  | nil => by_cases h : a = x <;> simp [writeByte, readByte, h, eq_comm]
  | cons c rest ih =>
    obtain ⟨k, v⟩ := c
    by_cases hlt : a < k
    · rw [writeByte, if_pos hlt, readByte]
      by_cases hx : x = a
      · rw [if_pos hx.symm, if_pos hx]
      · rw [if_neg (Ne.symm hx), if_neg hx]
    · by_cases hak : a = k
      · subst hak
        by_cases hx : x = a
        · simp [writeByte, readByte, hx]
        · have hx' : ¬ a = x := fun h => hx h.symm
          simp [writeByte, readByte, hx, hx']
      · simp only [writeByte, hlt, hak, if_false, readByte]
        by_cases hkx : k = x
        · have : x ≠ a := fun h => hak (h ▸ hkx.symm)
          simp [hkx, this]
        · simp [hkx, ih]

@[simp] theorem Memory.readByte_writeByte_same (m : Memory) (a : Nat) (b : Byte) :
    (m.writeByte a b).readByte a = some b := by simp [readByte_writeByte]

theorem Memory.readByte_writeByte_other (m : Memory) {a x : Nat} (b : Byte) (h : x ≠ a) :
    (m.writeByte a b).readByte x = m.readByte x := by simp [readByte_writeByte, h]

/-- Every address a byte write lists is the one written or was listed before. -/
theorem Memory.mem_writeByte {m : Memory} {a : Nat} {b : Byte} {c : Host.Cell} (h : c ∈ m.writeByte a b) :
    c = (a, b) ∨ c ∈ m := by
  induction m with
  | nil => simpa [writeByte] using h
  | cons d rest ih =>
    obtain ⟨k, v⟩ := d
    by_cases hlt : a < k
    · simpa [writeByte, hlt] using h
    · by_cases hak : a = k
      · rw [writeByte, if_neg hlt, if_pos hak, List.mem_cons] at h
        rcases h with h | h
        · exact .inl h
        · exact .inr (List.mem_cons_of_mem _ h)
      · rw [writeByte, if_neg hlt, if_neg hak, List.mem_cons] at h
        rcases h with h | h
        · exact .inr (h ▸ List.mem_cons_self)
        · exact (ih h).imp_right (List.mem_cons_of_mem _)

/-- A byte write inside frame memory keeps the canonical form. -/
theorem Memory.writeByte_wf {m : Memory} {a : Nat} (b : Byte) (h : m.wf) (ha : a < 0x1000) :
    (m.writeByte a b).wf := by
  refine ⟨?_, fun c hc => ?_⟩
  · obtain ⟨hp, -⟩ := h
    induction m with
    | nil => simp [writeByte]
    | cons d rest ih =>
      obtain ⟨k, v⟩ := d
      obtain ⟨hk, hrest⟩ := List.pairwise_cons.mp hp
      by_cases hlt : a < k
      · rw [writeByte, if_pos hlt, List.pairwise_cons]
        refine ⟨fun c hc => ?_, hp⟩
        rcases List.mem_cons.mp hc with rfl | hc
        · exact hlt
        · exact lt_trans hlt (hk c hc)
      · by_cases hak : a = k
        · rw [writeByte, if_neg hlt, if_pos hak, List.pairwise_cons]
          exact ⟨fun c hc => hak ▸ hk c hc, hrest⟩
        · rw [writeByte, if_neg hlt, if_neg hak, List.pairwise_cons]
          refine ⟨fun c hc => ?_, ih hrest⟩
          rcases mem_writeByte hc with rfl | hc
          · show k < a
            omega
          · exact hk c hc
  · rcases mem_writeByte hc with rfl | hc
    · exact ha
    · exact h.2 c hc

/-! ### Byte sequences -/

@[simp] theorem Memory.write_nil (m : Memory) (a : Nat) : m.write a [] = m := rfl

@[simp] theorem Memory.write_cons (m : Memory) (a : Nat) (b : Byte) (bs : List Byte) :
    m.write a (b :: bs) = (m.writeByte a b).write (a + 1) bs := rfl

/-- What a byte reads after `MemWrite`: the byte written there, else what it was. -/
theorem Memory.readByte_write (m : Memory) (a x : Nat) (bs : List Byte) :
    (m.write a bs).readByte x =
      if a ≤ x ∧ x < a + bs.length then bs[x - a]? else m.readByte x := by
  induction bs generalizing m a with
  | nil =>
    have : ¬ (a ≤ x ∧ x < a + ([] : List Byte).length) := by simp
    rw [if_neg this, write_nil]
  | cons b bs ih =>
    rw [write_cons, ih, readByte_writeByte]
    simp only [List.length_cons]
    rcases lt_trichotomy x a with h | h | h
    · rw [if_neg (by omega), if_neg (by omega), if_neg (by omega)]
    · subst h
      rw [if_neg (by omega), if_pos rfl, if_pos (by omega)]
      simp
    · by_cases h' : x < a + 1 + bs.length
      · rw [if_pos (by omega), if_pos (by omega)]
        obtain ⟨d, rfl⟩ : ∃ d, x = a + 1 + d := ⟨x - (a + 1), by omega⟩
        have e1 : a + 1 + d - (a + 1) = d := by omega
        have e2 : a + 1 + d - a = d + 1 := by omega
        simp [e1, e2]
      · rw [if_neg (by omega), if_neg (by omega), if_neg (by omega)]

theorem Memory.readByte_write_outside (m : Memory) {a x : Nat} (bs : List Byte)
    (h : x < a ∨ a + bs.length ≤ x) : (m.write a bs).readByte x = m.readByte x := by
  rw [readByte_write, if_neg (by omega)]

theorem Memory.hasBytes_write (m : Memory) (a : Nat) (bs : List Byte) : HasBytes (m.write a bs) a bs := by
  intro j b hj
  have hlt : j < bs.length := (List.getElem?_eq_some_iff.mp hj).1
  rw [readByte_write, if_pos (by omega), Nat.add_sub_cancel_left, hj]

/-- `MemWrite` inside frame memory keeps the canonical form. -/
theorem Memory.write_wf {m : Memory} {a : Nat} (bs : List Byte) (h : m.wf) (ha : a + bs.length ≤ 0x1000) :
    (m.write a bs).wf := by
  induction bs generalizing m a with
  | nil => exact h
  | cons b bs ih =>
    rw [List.length_cons] at ha
    exact ih (writeByte_wf b h (by omega)) (by omega)

@[simp] theorem Memory.read_zero (m : Memory) (a : Nat) : m.read a 0 = .ok [] := rfl

/-- `MemRead` answers exactly the sequence of that length that memory holds. -/
theorem Memory.read_eq_ok_iff {m : Memory} {a n : Nat} {bs : List Byte} :
    m.read a n = .ok bs ↔ bs.length = n ∧ HasBytes m a bs := by
  induction n generalizing a bs with
  | zero =>
    simp only [read_zero, Except.ok.injEq, List.length_eq_zero_iff]
    constructor
    · rintro rfl
      exact ⟨rfl, fun j b h => by simp at h⟩
    · rintro ⟨rfl, -⟩
      rfl
  | succ n ih =>
    rw [read]
    cases hb : m.readByte a with
    | none =>
      refine ⟨fun h => (by simp at h), fun ⟨hl, hh⟩ => ?_⟩
      obtain ⟨b, bs', rfl⟩ := List.exists_cons_of_length_eq_add_one hl
      simpa [hb] using hh 0 b rfl
    | some b =>
      cases hr : m.read (a + 1) n with
      | error e =>
        refine ⟨fun h => (by simp at h), fun ⟨hl, hh⟩ => ?_⟩
        obtain ⟨b', bs', rfl⟩ := List.exists_cons_of_length_eq_add_one hl
        have : m.read (a + 1) n = .ok bs' := ih.mpr
          ⟨by simpa using hl, fun j c hj => by have := hh (j + 1) c (by simpa using hj); rwa [← Nat.add_assoc, Nat.add_right_comm] at this⟩
        simp [hr] at this
      | ok cs =>
        obtain ⟨hl', hh'⟩ := ih.mp hr
        simp only [Except.ok.injEq]
        constructor
        · rintro rfl
          refine ⟨by simp [hl'], fun j c hj => ?_⟩
          cases j with
          | zero => simpa [hb] using hj
          | succ j => have := hh' j c (by simpa using hj); rwa [Nat.add_right_comm] at this
        · rintro ⟨hl, hh⟩
          obtain ⟨b', bs', rfl⟩ := List.exists_cons_of_length_eq_add_one hl
          have h0 : b = b' := by simpa [hb] using hh 0 b' rfl
          have : m.read (a + 1) n = .ok bs' := ih.mpr
            ⟨by simpa using hl, fun j c hj => by have := hh (j + 1) c (by simpa using hj); rwa [← Nat.add_assoc, Nat.add_right_comm] at this⟩
          rw [hr, Except.ok.injEq] at this
          rw [h0, this]

/-- `MemRead` stops at a byte of its range that has no value. -/
theorem Memory.read_eq_error {m : Memory} {a n x : Nat} (h : m.read a n = .error x) :
    a ≤ x ∧ x < a + n ∧ m.readByte x = none := by
  induction n generalizing a with
  | zero => simp at h
  | succ n ih =>
    rw [read] at h
    cases hb : m.readByte a with
    | none =>
      rw [hb] at h
      obtain rfl : a = x := by simpa using h
      exact ⟨le_rfl, by omega, hb⟩
    | some b =>
      rw [hb] at h
      cases hr : m.read (a + 1) n with
      | ok bs => simp [hr] at h
      | error e =>
        obtain rfl : e = x := by simpa [hr] using h
        obtain ⟨h1, h2, h3⟩ := ih hr
        exact ⟨by omega, by omega, h3⟩

end Sys2Proof.Machine
end

