-- ==== Sys2Proof/Laws/State.lean ====
section
/-! SUPPORT. One lemma per field per update of the state, so that no proof unfolds a record update. -/

namespace Sys2Proof.Machine

/-! #### `setRes` -/

section
variable (r0 r1 r2 r3 : Word) (s : State)

@[simp] theorem setRes_params : (setRes r0 r1 r2 r3 s).params = s.params := rfl
@[simp] theorem setRes_irqEn : (setRes r0 r1 r2 r3 s).irqEn = s.irqEn := rfl
@[simp] theorem setRes_status : (setRes r0 r1 r2 r3 s).status = s.status := rfl
@[simp] theorem setRes_cmd : (setRes r0 r1 r2 r3 s).cmd = s.cmd := rfl
@[simp] theorem setRes_arg0 : (setRes r0 r1 r2 r3 s).arg0 = s.arg0 := rfl
@[simp] theorem setRes_arg1 : (setRes r0 r1 r2 r3 s).arg1 = s.arg1 := rfl
@[simp] theorem setRes_arg2 : (setRes r0 r1 r2 r3 s).arg2 = s.arg2 := rfl
@[simp] theorem setRes_arg3 : (setRes r0 r1 r2 r3 s).arg3 = s.arg3 := rfl
@[simp] theorem setRes_res0 : (setRes r0 r1 r2 r3 s).res0 = r0 := rfl
@[simp] theorem setRes_res1 : (setRes r0 r1 r2 r3 s).res1 = r1 := rfl
@[simp] theorem setRes_res2 : (setRes r0 r1 r2 r3 s).res2 = r2 := rfl
@[simp] theorem setRes_res3 : (setRes r0 r1 r2 r3 s).res3 = r3 := rfl
@[simp] theorem setRes_rxLen : (setRes r0 r1 r2 r3 s).rxLen = s.rxLen := rfl
@[simp] theorem setRes_txLen : (setRes r0 r1 r2 r3 s).txLen = s.txLen := rfl
@[simp] theorem setRes_txIf : (setRes r0 r1 r2 r3 s).txIf = s.txIf := rfl
@[simp] theorem setRes_iftab : (setRes r0 r1 r2 r3 s).iftab = s.iftab := rfl
@[simp] theorem setRes_routes : (setRes r0 r1 r2 r3 s).routes = s.routes := rfl
@[simp] theorem setRes_nodes : (setRes r0 r1 r2 r3 s).nodes = s.nodes := rfl
@[simp] theorem setRes_fmem : (setRes r0 r1 r2 r3 s).fmem = s.fmem := rfl
@[simp] theorem setRes_pending : (setRes r0 r1 r2 r3 s).pending = s.pending := rfl
@[simp] theorem setRes_resetting : (setRes r0 r1 r2 r3 s).resetting = s.resetting := rfl
@[simp] theorem setRes_rst : (setRes r0 r1 r2 r3 s).rst = s.rst := rfl
@[simp] theorem setRes_hazard : (setRes r0 r1 r2 r3 s).hazard = s.hazard := rfl
@[simp] theorem setRes_inputs : (setRes r0 r1 r2 r3 s).inputs = s.inputs := rfl
@[simp] theorem setRes_resp : (setRes r0 r1 r2 r3 s).resp = s.resp := rfl
@[simp] theorem setRes_draws : (setRes r0 r1 r2 r3 s).draws = s.draws := rfl

end

/-! #### `setMem` -/

section
variable (a : Nat) (bs : List Byte) (s : State)

@[simp] theorem setMem_params : (setMem a bs s).params = s.params := rfl
@[simp] theorem setMem_irqEn : (setMem a bs s).irqEn = s.irqEn := rfl
@[simp] theorem setMem_status : (setMem a bs s).status = s.status := rfl
@[simp] theorem setMem_cmd : (setMem a bs s).cmd = s.cmd := rfl
@[simp] theorem setMem_arg0 : (setMem a bs s).arg0 = s.arg0 := rfl
@[simp] theorem setMem_arg1 : (setMem a bs s).arg1 = s.arg1 := rfl
@[simp] theorem setMem_arg2 : (setMem a bs s).arg2 = s.arg2 := rfl
@[simp] theorem setMem_arg3 : (setMem a bs s).arg3 = s.arg3 := rfl
@[simp] theorem setMem_res0 : (setMem a bs s).res0 = s.res0 := rfl
@[simp] theorem setMem_res1 : (setMem a bs s).res1 = s.res1 := rfl
@[simp] theorem setMem_res2 : (setMem a bs s).res2 = s.res2 := rfl
@[simp] theorem setMem_res3 : (setMem a bs s).res3 = s.res3 := rfl
@[simp] theorem setMem_rxLen : (setMem a bs s).rxLen = s.rxLen := rfl
@[simp] theorem setMem_txLen : (setMem a bs s).txLen = s.txLen := rfl
@[simp] theorem setMem_txIf : (setMem a bs s).txIf = s.txIf := rfl
@[simp] theorem setMem_iftab : (setMem a bs s).iftab = s.iftab := rfl
@[simp] theorem setMem_routes : (setMem a bs s).routes = s.routes := rfl
@[simp] theorem setMem_nodes : (setMem a bs s).nodes = s.nodes := rfl
@[simp] theorem setMem_fmem : (setMem a bs s).fmem = s.fmem.write a bs := rfl
@[simp] theorem setMem_pending : (setMem a bs s).pending = s.pending := rfl
@[simp] theorem setMem_resetting : (setMem a bs s).resetting = s.resetting := rfl
@[simp] theorem setMem_rst : (setMem a bs s).rst = s.rst := rfl
@[simp] theorem setMem_hazard : (setMem a bs s).hazard = s.hazard := rfl
@[simp] theorem setMem_inputs : (setMem a bs s).inputs = s.inputs := rfl
@[simp] theorem setMem_resp : (setMem a bs s).resp = s.resp := rfl
@[simp] theorem setMem_draws : (setMem a bs s).draws = s.draws := rfl

end

/-! #### `setTx` -/

section
variable (len : Half) (k : Byte) (s : State)

@[simp] theorem setTx_params : (setTx len k s).params = s.params := rfl
@[simp] theorem setTx_irqEn : (setTx len k s).irqEn = s.irqEn := rfl
@[simp] theorem setTx_status : (setTx len k s).status = s.status := rfl
@[simp] theorem setTx_cmd : (setTx len k s).cmd = s.cmd := rfl
@[simp] theorem setTx_arg0 : (setTx len k s).arg0 = s.arg0 := rfl
@[simp] theorem setTx_arg1 : (setTx len k s).arg1 = s.arg1 := rfl
@[simp] theorem setTx_arg2 : (setTx len k s).arg2 = s.arg2 := rfl
@[simp] theorem setTx_arg3 : (setTx len k s).arg3 = s.arg3 := rfl
@[simp] theorem setTx_res0 : (setTx len k s).res0 = s.res0 := rfl
@[simp] theorem setTx_res1 : (setTx len k s).res1 = s.res1 := rfl
@[simp] theorem setTx_res2 : (setTx len k s).res2 = s.res2 := rfl
@[simp] theorem setTx_res3 : (setTx len k s).res3 = s.res3 := rfl
@[simp] theorem setTx_rxLen : (setTx len k s).rxLen = s.rxLen := rfl
@[simp] theorem setTx_txLen : (setTx len k s).txLen = len := rfl
@[simp] theorem setTx_txIf : (setTx len k s).txIf = k := rfl
@[simp] theorem setTx_iftab : (setTx len k s).iftab = s.iftab := rfl
@[simp] theorem setTx_routes : (setTx len k s).routes = s.routes := rfl
@[simp] theorem setTx_nodes : (setTx len k s).nodes = s.nodes := rfl
@[simp] theorem setTx_fmem : (setTx len k s).fmem = s.fmem := rfl
@[simp] theorem setTx_pending : (setTx len k s).pending = s.pending := rfl
@[simp] theorem setTx_resetting : (setTx len k s).resetting = s.resetting := rfl
@[simp] theorem setTx_rst : (setTx len k s).rst = s.rst := rfl
@[simp] theorem setTx_hazard : (setTx len k s).hazard = s.hazard := rfl
@[simp] theorem setTx_inputs : (setTx len k s).inputs = s.inputs := rfl
@[simp] theorem setTx_resp : (setTx len k s).resp = s.resp := rfl
@[simp] theorem setTx_draws : (setTx len k s).draws = s.draws := rfl

end

/-! #### `setFound` -/

section
variable (f : Bool) (s : State)

@[simp] theorem setFound_params : (setFound f s).params = s.params := rfl
@[simp] theorem setFound_irqEn : (setFound f s).irqEn = s.irqEn := rfl
@[simp] theorem setFound_status : (setFound f s).status = { s.status with found := f } := rfl
@[simp] theorem setFound_cmd : (setFound f s).cmd = s.cmd := rfl
@[simp] theorem setFound_arg0 : (setFound f s).arg0 = s.arg0 := rfl
@[simp] theorem setFound_arg1 : (setFound f s).arg1 = s.arg1 := rfl
@[simp] theorem setFound_arg2 : (setFound f s).arg2 = s.arg2 := rfl
@[simp] theorem setFound_arg3 : (setFound f s).arg3 = s.arg3 := rfl
@[simp] theorem setFound_res0 : (setFound f s).res0 = s.res0 := rfl
@[simp] theorem setFound_res1 : (setFound f s).res1 = s.res1 := rfl
@[simp] theorem setFound_res2 : (setFound f s).res2 = s.res2 := rfl
@[simp] theorem setFound_res3 : (setFound f s).res3 = s.res3 := rfl
@[simp] theorem setFound_rxLen : (setFound f s).rxLen = s.rxLen := rfl
@[simp] theorem setFound_txLen : (setFound f s).txLen = s.txLen := rfl
@[simp] theorem setFound_txIf : (setFound f s).txIf = s.txIf := rfl
@[simp] theorem setFound_iftab : (setFound f s).iftab = s.iftab := rfl
@[simp] theorem setFound_routes : (setFound f s).routes = s.routes := rfl
@[simp] theorem setFound_nodes : (setFound f s).nodes = s.nodes := rfl
@[simp] theorem setFound_fmem : (setFound f s).fmem = s.fmem := rfl
@[simp] theorem setFound_pending : (setFound f s).pending = s.pending := rfl
@[simp] theorem setFound_resetting : (setFound f s).resetting = s.resetting := rfl
@[simp] theorem setFound_rst : (setFound f s).rst = s.rst := rfl
@[simp] theorem setFound_hazard : (setFound f s).hazard = s.hazard := rfl
@[simp] theorem setFound_inputs : (setFound f s).inputs = s.inputs := rfl
@[simp] theorem setFound_resp : (setFound f s).resp = s.resp := rfl
@[simp] theorem setFound_draws : (setFound f s).draws = s.draws := rfl

end

/-! #### `accept` -/

section
variable (w : Word) (s : State)

@[simp] theorem accept_params : (accept w s).params = s.params := rfl
@[simp] theorem accept_irqEn : (accept w s).irqEn = s.irqEn := rfl
@[simp] theorem accept_status : (accept w s).status = s.status.accepted := rfl
@[simp] theorem accept_cmd : (accept w s).cmd = w := rfl
@[simp] theorem accept_arg0 : (accept w s).arg0 = s.arg0 := rfl
@[simp] theorem accept_arg1 : (accept w s).arg1 = s.arg1 := rfl
@[simp] theorem accept_arg2 : (accept w s).arg2 = s.arg2 := rfl
@[simp] theorem accept_arg3 : (accept w s).arg3 = s.arg3 := rfl
@[simp] theorem accept_res0 : (accept w s).res0 = s.res0 := rfl
@[simp] theorem accept_res1 : (accept w s).res1 = s.res1 := rfl
@[simp] theorem accept_res2 : (accept w s).res2 = s.res2 := rfl
@[simp] theorem accept_res3 : (accept w s).res3 = s.res3 := rfl
@[simp] theorem accept_rxLen : (accept w s).rxLen = s.rxLen := rfl
@[simp] theorem accept_txLen : (accept w s).txLen = s.txLen := rfl
@[simp] theorem accept_txIf : (accept w s).txIf = s.txIf := rfl
@[simp] theorem accept_iftab : (accept w s).iftab = s.iftab := rfl
@[simp] theorem accept_routes : (accept w s).routes = s.routes := rfl
@[simp] theorem accept_nodes : (accept w s).nodes = s.nodes := rfl
@[simp] theorem accept_fmem : (accept w s).fmem = s.fmem := rfl
@[simp] theorem accept_pending : (accept w s).pending = true := rfl
@[simp] theorem accept_resetting : (accept w s).resetting = s.resetting := rfl
@[simp] theorem accept_rst : (accept w s).rst = s.rst := rfl
@[simp] theorem accept_hazard : (accept w s).hazard = s.hazard := rfl
@[simp] theorem accept_inputs : (accept w s).inputs = s.inputs := rfl
@[simp] theorem accept_resp : (accept w s).resp = s.resp := rfl
@[simp] theorem accept_draws : (accept w s).draws = s.draws := rfl

end

/-! #### `completeOk` -/

section
variable (s : State)

@[simp] theorem completeOk_params : (completeOk s).params = s.params := rfl
@[simp] theorem completeOk_irqEn : (completeOk s).irqEn = s.irqEn := rfl
@[simp] theorem completeOk_status : (completeOk s).status = s.status.completedOk := rfl
@[simp] theorem completeOk_cmd : (completeOk s).cmd = s.cmd := rfl
@[simp] theorem completeOk_arg0 : (completeOk s).arg0 = s.arg0 := rfl
@[simp] theorem completeOk_arg1 : (completeOk s).arg1 = s.arg1 := rfl
@[simp] theorem completeOk_arg2 : (completeOk s).arg2 = s.arg2 := rfl
@[simp] theorem completeOk_arg3 : (completeOk s).arg3 = s.arg3 := rfl
@[simp] theorem completeOk_res0 : (completeOk s).res0 = s.res0 := rfl
@[simp] theorem completeOk_res1 : (completeOk s).res1 = s.res1 := rfl
@[simp] theorem completeOk_res2 : (completeOk s).res2 = s.res2 := rfl
@[simp] theorem completeOk_res3 : (completeOk s).res3 = s.res3 := rfl
@[simp] theorem completeOk_rxLen : (completeOk s).rxLen = s.rxLen := rfl
@[simp] theorem completeOk_txLen : (completeOk s).txLen = s.txLen := rfl
@[simp] theorem completeOk_txIf : (completeOk s).txIf = s.txIf := rfl
@[simp] theorem completeOk_iftab : (completeOk s).iftab = s.iftab := rfl
@[simp] theorem completeOk_routes : (completeOk s).routes = s.routes := rfl
@[simp] theorem completeOk_nodes : (completeOk s).nodes = s.nodes := rfl
@[simp] theorem completeOk_fmem : (completeOk s).fmem = s.fmem := rfl
@[simp] theorem completeOk_pending : (completeOk s).pending = false := rfl
@[simp] theorem completeOk_resetting : (completeOk s).resetting = s.resetting := rfl
@[simp] theorem completeOk_rst : (completeOk s).rst = s.rst := rfl
@[simp] theorem completeOk_hazard : (completeOk s).hazard = s.hazard := rfl
@[simp] theorem completeOk_inputs : (completeOk s).inputs = s.inputs := rfl
@[simp] theorem completeOk_resp : (completeOk s).resp = s.resp := rfl
@[simp] theorem completeOk_draws : (completeOk s).draws = s.draws := rfl

end

/-! #### `completeError` -/

section
variable (e : ErrorCode) (s : State)

@[simp] theorem completeError_params : (completeError e s).params = s.params := rfl
@[simp] theorem completeError_irqEn : (completeError e s).irqEn = s.irqEn := rfl
@[simp] theorem completeError_status : (completeError e s).status = s.status.completedError e := rfl
@[simp] theorem completeError_cmd : (completeError e s).cmd = s.cmd := rfl
@[simp] theorem completeError_arg0 : (completeError e s).arg0 = s.arg0 := rfl
@[simp] theorem completeError_arg1 : (completeError e s).arg1 = s.arg1 := rfl
@[simp] theorem completeError_arg2 : (completeError e s).arg2 = s.arg2 := rfl
@[simp] theorem completeError_arg3 : (completeError e s).arg3 = s.arg3 := rfl
@[simp] theorem completeError_res0 : (completeError e s).res0 = s.res0 := rfl
@[simp] theorem completeError_res1 : (completeError e s).res1 = s.res1 := rfl
@[simp] theorem completeError_res2 : (completeError e s).res2 = s.res2 := rfl
@[simp] theorem completeError_res3 : (completeError e s).res3 = s.res3 := rfl
@[simp] theorem completeError_rxLen : (completeError e s).rxLen = s.rxLen := rfl
@[simp] theorem completeError_txLen : (completeError e s).txLen = s.txLen := rfl
@[simp] theorem completeError_txIf : (completeError e s).txIf = s.txIf := rfl
@[simp] theorem completeError_iftab : (completeError e s).iftab = s.iftab := rfl
@[simp] theorem completeError_routes : (completeError e s).routes = s.routes := rfl
@[simp] theorem completeError_nodes : (completeError e s).nodes = s.nodes := rfl
@[simp] theorem completeError_fmem : (completeError e s).fmem = s.fmem := rfl
@[simp] theorem completeError_pending : (completeError e s).pending = false := rfl
@[simp] theorem completeError_resetting : (completeError e s).resetting = s.resetting := rfl
@[simp] theorem completeError_rst : (completeError e s).rst = s.rst := rfl
@[simp] theorem completeError_hazard : (completeError e s).hazard = s.hazard := rfl
@[simp] theorem completeError_inputs : (completeError e s).inputs = s.inputs := rfl
@[simp] theorem completeError_resp : (completeError e s).resp = s.resp := rfl
@[simp] theorem completeError_draws : (completeError e s).draws = s.draws := rfl

end

/-! #### `endReset` -/

section
variable (s : State)

@[simp] theorem endReset_params : (endReset s).params = s.params := rfl
@[simp] theorem endReset_irqEn : (endReset s).irqEn = s.irqEn := rfl
@[simp] theorem endReset_status : (endReset s).status = s.status := rfl
@[simp] theorem endReset_cmd : (endReset s).cmd = s.cmd := rfl
@[simp] theorem endReset_arg0 : (endReset s).arg0 = s.arg0 := rfl
@[simp] theorem endReset_arg1 : (endReset s).arg1 = s.arg1 := rfl
@[simp] theorem endReset_arg2 : (endReset s).arg2 = s.arg2 := rfl
@[simp] theorem endReset_arg3 : (endReset s).arg3 = s.arg3 := rfl
@[simp] theorem endReset_res0 : (endReset s).res0 = s.res0 := rfl
@[simp] theorem endReset_res1 : (endReset s).res1 = s.res1 := rfl
@[simp] theorem endReset_res2 : (endReset s).res2 = s.res2 := rfl
@[simp] theorem endReset_res3 : (endReset s).res3 = s.res3 := rfl
@[simp] theorem endReset_rxLen : (endReset s).rxLen = s.rxLen := rfl
@[simp] theorem endReset_txLen : (endReset s).txLen = s.txLen := rfl
@[simp] theorem endReset_txIf : (endReset s).txIf = s.txIf := rfl
@[simp] theorem endReset_iftab : (endReset s).iftab = s.iftab := rfl
@[simp] theorem endReset_routes : (endReset s).routes = s.routes := rfl
@[simp] theorem endReset_nodes : (endReset s).nodes = s.nodes := rfl
@[simp] theorem endReset_fmem : (endReset s).fmem = s.fmem := rfl
@[simp] theorem endReset_pending : (endReset s).pending = s.pending := rfl
@[simp] theorem endReset_resetting : (endReset s).resetting = false := rfl
@[simp] theorem endReset_rst : (endReset s).rst = s.rst := rfl
@[simp] theorem endReset_hazard : (endReset s).hazard = s.hazard := rfl
@[simp] theorem endReset_inputs : (endReset s).inputs = s.inputs := rfl
@[simp] theorem endReset_resp : (endReset s).resp = s.resp := rfl
@[simp] theorem endReset_draws : (endReset s).draws = s.draws := rfl

end

/-! #### `respond` -/

section
variable (v : Word) (s : State)

@[simp] theorem respond_params : (respond v s).params = s.params := rfl
@[simp] theorem respond_irqEn : (respond v s).irqEn = s.irqEn := rfl
@[simp] theorem respond_status : (respond v s).status = s.status := rfl
@[simp] theorem respond_cmd : (respond v s).cmd = s.cmd := rfl
@[simp] theorem respond_arg0 : (respond v s).arg0 = s.arg0 := rfl
@[simp] theorem respond_arg1 : (respond v s).arg1 = s.arg1 := rfl
@[simp] theorem respond_arg2 : (respond v s).arg2 = s.arg2 := rfl
@[simp] theorem respond_arg3 : (respond v s).arg3 = s.arg3 := rfl
@[simp] theorem respond_res0 : (respond v s).res0 = s.res0 := rfl
@[simp] theorem respond_res1 : (respond v s).res1 = s.res1 := rfl
@[simp] theorem respond_res2 : (respond v s).res2 = s.res2 := rfl
@[simp] theorem respond_res3 : (respond v s).res3 = s.res3 := rfl
@[simp] theorem respond_rxLen : (respond v s).rxLen = s.rxLen := rfl
@[simp] theorem respond_txLen : (respond v s).txLen = s.txLen := rfl
@[simp] theorem respond_txIf : (respond v s).txIf = s.txIf := rfl
@[simp] theorem respond_iftab : (respond v s).iftab = s.iftab := rfl
@[simp] theorem respond_routes : (respond v s).routes = s.routes := rfl
@[simp] theorem respond_nodes : (respond v s).nodes = s.nodes := rfl
@[simp] theorem respond_fmem : (respond v s).fmem = s.fmem := rfl
@[simp] theorem respond_pending : (respond v s).pending = s.pending := rfl
@[simp] theorem respond_resetting : (respond v s).resetting = s.resetting := rfl
@[simp] theorem respond_rst : (respond v s).rst = s.rst := rfl
@[simp] theorem respond_hazard : (respond v s).hazard = s.hazard := rfl
@[simp] theorem respond_inputs : (respond v s).inputs = s.inputs := rfl
@[simp] theorem respond_resp : (respond v s).resp = some (.value v) := rfl
@[simp] theorem respond_draws : (respond v s).draws = s.draws := rfl

end

/-! #### `respondDrawn` -/

section
variable (n : Nat) (s : State)

@[simp] theorem respondDrawn_params : (respondDrawn n s).params = s.params := rfl
@[simp] theorem respondDrawn_irqEn : (respondDrawn n s).irqEn = s.irqEn := rfl
@[simp] theorem respondDrawn_status : (respondDrawn n s).status = s.status := rfl
@[simp] theorem respondDrawn_cmd : (respondDrawn n s).cmd = s.cmd := rfl
@[simp] theorem respondDrawn_arg0 : (respondDrawn n s).arg0 = s.arg0 := rfl
@[simp] theorem respondDrawn_arg1 : (respondDrawn n s).arg1 = s.arg1 := rfl
@[simp] theorem respondDrawn_arg2 : (respondDrawn n s).arg2 = s.arg2 := rfl
@[simp] theorem respondDrawn_arg3 : (respondDrawn n s).arg3 = s.arg3 := rfl
@[simp] theorem respondDrawn_res0 : (respondDrawn n s).res0 = s.res0 := rfl
@[simp] theorem respondDrawn_res1 : (respondDrawn n s).res1 = s.res1 := rfl
@[simp] theorem respondDrawn_res2 : (respondDrawn n s).res2 = s.res2 := rfl
@[simp] theorem respondDrawn_res3 : (respondDrawn n s).res3 = s.res3 := rfl
@[simp] theorem respondDrawn_rxLen : (respondDrawn n s).rxLen = s.rxLen := rfl
@[simp] theorem respondDrawn_txLen : (respondDrawn n s).txLen = s.txLen := rfl
@[simp] theorem respondDrawn_txIf : (respondDrawn n s).txIf = s.txIf := rfl
@[simp] theorem respondDrawn_iftab : (respondDrawn n s).iftab = s.iftab := rfl
@[simp] theorem respondDrawn_routes : (respondDrawn n s).routes = s.routes := rfl
@[simp] theorem respondDrawn_nodes : (respondDrawn n s).nodes = s.nodes := rfl
@[simp] theorem respondDrawn_fmem : (respondDrawn n s).fmem = s.fmem := rfl
@[simp] theorem respondDrawn_pending : (respondDrawn n s).pending = s.pending := rfl
@[simp] theorem respondDrawn_resetting : (respondDrawn n s).resetting = s.resetting := rfl
@[simp] theorem respondDrawn_rst : (respondDrawn n s).rst = s.rst := rfl
@[simp] theorem respondDrawn_hazard : (respondDrawn n s).hazard = s.hazard := rfl
@[simp] theorem respondDrawn_inputs : (respondDrawn n s).inputs = s.inputs := rfl
@[simp] theorem respondDrawn_resp : (respondDrawn n s).resp = some (.value (raw (drawn s n))) := rfl
@[simp] theorem respondDrawn_draws : (respondDrawn n s).draws = s.draws + n := rfl

end

/-! #### `writeStatus` -/

section
variable (v : Word) (s : State)

@[simp] theorem writeStatus_params : (writeStatus v s).params = s.params := rfl
@[simp] theorem writeStatus_irqEn : (writeStatus v s).irqEn = s.irqEn := rfl
@[simp] theorem writeStatus_status : (writeStatus v s).status = s.status.clearWritten v := rfl
@[simp] theorem writeStatus_cmd : (writeStatus v s).cmd = s.cmd := rfl
@[simp] theorem writeStatus_arg0 : (writeStatus v s).arg0 = s.arg0 := rfl
@[simp] theorem writeStatus_arg1 : (writeStatus v s).arg1 = s.arg1 := rfl
@[simp] theorem writeStatus_arg2 : (writeStatus v s).arg2 = s.arg2 := rfl
@[simp] theorem writeStatus_arg3 : (writeStatus v s).arg3 = s.arg3 := rfl
@[simp] theorem writeStatus_res0 : (writeStatus v s).res0 = s.res0 := rfl
@[simp] theorem writeStatus_res1 : (writeStatus v s).res1 = s.res1 := rfl
@[simp] theorem writeStatus_res2 : (writeStatus v s).res2 = s.res2 := rfl
@[simp] theorem writeStatus_res3 : (writeStatus v s).res3 = s.res3 := rfl
@[simp] theorem writeStatus_rxLen : (writeStatus v s).rxLen = s.rxLen := rfl
@[simp] theorem writeStatus_txLen : (writeStatus v s).txLen = s.txLen := rfl
@[simp] theorem writeStatus_txIf : (writeStatus v s).txIf = s.txIf := rfl
@[simp] theorem writeStatus_iftab : (writeStatus v s).iftab = s.iftab := rfl
@[simp] theorem writeStatus_routes : (writeStatus v s).routes = s.routes := rfl
@[simp] theorem writeStatus_nodes : (writeStatus v s).nodes = s.nodes := rfl
@[simp] theorem writeStatus_fmem : (writeStatus v s).fmem = s.fmem := rfl
@[simp] theorem writeStatus_pending : (writeStatus v s).pending = s.pending := rfl
@[simp] theorem writeStatus_resetting : (writeStatus v s).resetting = s.resetting := rfl
@[simp] theorem writeStatus_rst : (writeStatus v s).rst = s.rst := rfl
@[simp] theorem writeStatus_hazard : (writeStatus v s).hazard = s.hazard := rfl
@[simp] theorem writeStatus_inputs : (writeStatus v s).inputs = s.inputs := rfl
@[simp] theorem writeStatus_resp : (writeStatus v s).resp = s.resp := rfl
@[simp] theorem writeStatus_draws : (writeStatus v s).draws = s.draws := rfl

end

/-! #### `rstDeasserted` -/

section
variable (s : State)

@[simp] theorem rstDeasserted_params : (rstDeasserted s).params = s.params := rfl
@[simp] theorem rstDeasserted_irqEn : (rstDeasserted s).irqEn = s.irqEn := rfl
@[simp] theorem rstDeasserted_status : (rstDeasserted s).status = s.status := rfl
@[simp] theorem rstDeasserted_cmd : (rstDeasserted s).cmd = s.cmd := rfl
@[simp] theorem rstDeasserted_arg0 : (rstDeasserted s).arg0 = s.arg0 := rfl
@[simp] theorem rstDeasserted_arg1 : (rstDeasserted s).arg1 = s.arg1 := rfl
@[simp] theorem rstDeasserted_arg2 : (rstDeasserted s).arg2 = s.arg2 := rfl
@[simp] theorem rstDeasserted_arg3 : (rstDeasserted s).arg3 = s.arg3 := rfl
@[simp] theorem rstDeasserted_res0 : (rstDeasserted s).res0 = s.res0 := rfl
@[simp] theorem rstDeasserted_res1 : (rstDeasserted s).res1 = s.res1 := rfl
@[simp] theorem rstDeasserted_res2 : (rstDeasserted s).res2 = s.res2 := rfl
@[simp] theorem rstDeasserted_res3 : (rstDeasserted s).res3 = s.res3 := rfl
@[simp] theorem rstDeasserted_rxLen : (rstDeasserted s).rxLen = s.rxLen := rfl
@[simp] theorem rstDeasserted_txLen : (rstDeasserted s).txLen = s.txLen := rfl
@[simp] theorem rstDeasserted_txIf : (rstDeasserted s).txIf = s.txIf := rfl
@[simp] theorem rstDeasserted_iftab : (rstDeasserted s).iftab = s.iftab := rfl
@[simp] theorem rstDeasserted_routes : (rstDeasserted s).routes = s.routes := rfl
@[simp] theorem rstDeasserted_nodes : (rstDeasserted s).nodes = s.nodes := rfl
@[simp] theorem rstDeasserted_fmem : (rstDeasserted s).fmem = s.fmem := rfl
@[simp] theorem rstDeasserted_pending : (rstDeasserted s).pending = s.pending := rfl
@[simp] theorem rstDeasserted_resetting : (rstDeasserted s).resetting = s.resetting := rfl
@[simp] theorem rstDeasserted_rst : (rstDeasserted s).rst = false := rfl
@[simp] theorem rstDeasserted_hazard : (rstDeasserted s).hazard = s.hazard := rfl
@[simp] theorem rstDeasserted_inputs : (rstDeasserted s).inputs = s.inputs := rfl
@[simp] theorem rstDeasserted_resp : (rstDeasserted s).resp = s.resp := rfl
@[simp] theorem rstDeasserted_draws : (rstDeasserted s).draws = s.draws := rfl

end

/-! #### `startReset` -/

section
variable (s : State)

@[simp] theorem startReset_params : (startReset s).params = s.params := rfl
@[simp] theorem startReset_irqEn : (startReset s).irqEn = false := rfl
@[simp] theorem startReset_status : (startReset s).status = Status.zero := rfl
@[simp] theorem startReset_cmd : (startReset s).cmd = 0#32 := rfl
@[simp] theorem startReset_arg0 : (startReset s).arg0 = 0#32 := rfl
@[simp] theorem startReset_arg1 : (startReset s).arg1 = 0#32 := rfl
@[simp] theorem startReset_arg2 : (startReset s).arg2 = 0#32 := rfl
@[simp] theorem startReset_arg3 : (startReset s).arg3 = 0#32 := rfl
@[simp] theorem startReset_res0 : (startReset s).res0 = 0#32 := rfl
@[simp] theorem startReset_res1 : (startReset s).res1 = 0#32 := rfl
@[simp] theorem startReset_res2 : (startReset s).res2 = 0#32 := rfl
@[simp] theorem startReset_res3 : (startReset s).res3 = 0#32 := rfl
@[simp] theorem startReset_rxLen : (startReset s).rxLen = 0#16 := rfl
@[simp] theorem startReset_txLen : (startReset s).txLen = 0#16 := rfl
@[simp] theorem startReset_txIf : (startReset s).txIf = 0#8 := rfl
@[simp] theorem startReset_iftab : (startReset s).iftab = List.replicate s.params.nif IfEntry.zero := rfl
@[simp] theorem startReset_routes : (startReset s).routes = [] := rfl
@[simp] theorem startReset_nodes : (startReset s).nodes = [Node.empty] := rfl
@[simp] theorem startReset_fmem : (startReset s).fmem = [] := rfl
@[simp] theorem startReset_pending : (startReset s).pending = false := rfl
@[simp] theorem startReset_resetting : (startReset s).resetting = true := rfl
@[simp] theorem startReset_rst : (startReset s).rst = s.rst := rfl
@[simp] theorem startReset_hazard : (startReset s).hazard = s.hazard := rfl
@[simp] theorem startReset_inputs : (startReset s).inputs = s.inputs := rfl
@[simp] theorem startReset_resp : (startReset s).resp = s.resp := rfl
@[simp] theorem startReset_draws : (startReset s).draws = s.draws := rfl

end

/-! #### `Status.accepted` -/

section
variable (st : Status)

@[simp] theorem Status.accepted_done : st.accepted.done = false := rfl
@[simp] theorem Status.accepted_err : st.accepted.err = false := rfl
@[simp] theorem Status.accepted_found : st.accepted.found = false := rfl
@[simp] theorem Status.accepted_ovr : st.accepted.ovr = st.ovr := rfl
@[simp] theorem Status.accepted_errCode : st.accepted.errCode = ErrorCode.none := rfl

end

/-! #### `Status.completedOk` -/

section
variable (st : Status)

@[simp] theorem Status.completedOk_done : st.completedOk.done = true := rfl
@[simp] theorem Status.completedOk_err : st.completedOk.err = false := rfl
@[simp] theorem Status.completedOk_found : st.completedOk.found = st.found := rfl
@[simp] theorem Status.completedOk_ovr : st.completedOk.ovr = st.ovr := rfl
@[simp] theorem Status.completedOk_errCode : st.completedOk.errCode = ErrorCode.none := rfl

end

/-! #### `Status.completedError` -/

section
variable (st : Status) (e : ErrorCode)

@[simp] theorem Status.completedError_done : (st.completedError e).done = true := rfl
@[simp] theorem Status.completedError_err : (st.completedError e).err = true := rfl
@[simp] theorem Status.completedError_found : (st.completedError e).found = false := rfl
@[simp] theorem Status.completedError_ovr : (st.completedError e).ovr = st.ovr := rfl
@[simp] theorem Status.completedError_errCode : (st.completedError e).errCode = e := rfl

end

/-! #### `Status.clearWritten` -/

section
variable (st : Status) (v : Word)

@[simp] theorem Status.clearWritten_done : (st.clearWritten v).done = (st.done && !v.getLsbD 1) := rfl
@[simp] theorem Status.clearWritten_err : (st.clearWritten v).err = st.err := rfl
@[simp] theorem Status.clearWritten_found : (st.clearWritten v).found = st.found := rfl
@[simp] theorem Status.clearWritten_ovr : (st.clearWritten v).ovr = (st.ovr && !v.getLsbD 4) := rfl
@[simp] theorem Status.clearWritten_errCode : (st.clearWritten v).errCode = st.errCode := rfl

end

end Sys2Proof.Machine
end

