-- ==== Sys2Proof/Laws/Ops.lean ====
section
/-! SUPPORT. What the shared operations can do: reading frame memory, the checks of a command, completion. -/

namespace Sys2Proof.Machine

open Sys2Proof.Safety

/-! ### Reading frame memory -/

/-- With the bytes there, a read goes on with them. -/
theorem reading_of_hasBytes {m : Memory} {a : Nat} {bs : List Byte} (k : List Byte → Result) (h : HasBytes m a bs) :
    reading m a bs.length k = k bs := by
  rw [reading, Memory.read_eq_ok_iff.mpr ⟨rfl, h⟩]

/-- A read that answers a next state found all its bytes. -/
theorem reading_eq_next {m : Memory} {a n : Nat} {k : List Byte → Result} {t : State}
    (h : reading m a n k = .next t) : ∃ bs, bs.length = n ∧ HasBytes m a bs ∧ k bs = .next t := by
  unfold reading at h
  split at h
  · next bs hbs =>
    obtain ⟨hl, hb⟩ := Memory.read_eq_ok_iff.mp hbs
    exact ⟨bs, hl, hb, h⟩
  · cases h

/-- A read goes on with the bytes it found, or stops on the address of one that has no value. -/
theorem reading_cases (m : Memory) (a n : Nat) (k : List Byte → Result) :
    (∃ bs, bs.length = n ∧ HasBytes m a bs ∧ reading m a n k = k bs) ∨
    ∃ x, a ≤ x ∧ x < a + n ∧ m.readByte x = none ∧ reading m a n k = .fault (.unwrittenByte x) := by
  unfold reading
  cases h : m.read a n with
  | ok bs => exact .inl ⟨bs, (Memory.read_eq_ok_iff.mp h).1, (Memory.read_eq_ok_iff.mp h).2, rfl⟩
  | error x =>
    obtain ⟨h1, h2, h3⟩ := Memory.read_eq_error h
    exact .inr ⟨x, h1, h2, h3, rfl⟩

/-- A byte of the range with no value stops the read. -/
theorem reading_of_none {m : Memory} {a n x : Nat} (k : List Byte → Result) (hx : a ≤ x ∧ x < a + n)
    (h : m.readByte x = none) : ∃ y, reading m a n k = .fault (.unwrittenByte y) := by
  obtain ⟨bs, hl, hb, -⟩ | ⟨y, -, -, -, hy⟩ := reading_cases m a n k
  · have hlt : x - a < bs.length := by omega
    have := hb (x - a) _ (List.getElem?_eq_getElem hlt)
    rw [Nat.add_sub_cancel' hx.1, h] at this
    cases this
  · exact ⟨y, hy⟩

/-! ### The checks and completion -/

/-- R236's completion, written out. -/
theorem completeError_eq_errorState (e : ErrorCode) (s : State) : completeError e s = errorState e s := rfl

theorem performing_of_pass {i : Instr} {s : State} (f : State → Result) (h : firstError i s = .pass) :
    performing i s f = f s := by rw [performing, h]

theorem performing_of_error {i : Instr} {s : State} {e : ErrorCode} (f : State → Result)
    (h : firstError i s = .error e) : performing i s f = .next (errorState e s) := by
  rw [performing, h]
  rfl

/-- A command that answers a next state passed its checks and performed, or reported the first error. -/
theorem performing_eq_next {i : Instr} {s t : State} {f : State → Result} (h : performing i s f = .next t) :
    (firstError i s = .pass ∧ f s = .next t) ∨ ∃ e, firstError i s = .error e ∧ t = errorState e s := by
  unfold performing at h
  cases hc : firstError i s with
  | pass => rw [hc] at h; exact .inl ⟨rfl, h⟩
  | error e =>
    rw [hc] at h
    simp only [Host.Outcome.next.injEq] at h
    exact .inr ⟨e, rfl, h.symm⟩
  | unwritten a => rw [hc] at h; cases h

/-- A command performs, reports an error, or stops on the byte its checks could not read. -/
theorem performing_cases (i : Instr) (s : State) (f : State → Result) :
    (firstError i s = .pass ∧ performing i s f = f s) ∨
    (∃ e, firstError i s = .error e ∧ performing i s f = .next (errorState e s)) ∨
    ∃ a, firstError i s = .unwritten a ∧ performing i s f = .fault (.unwrittenByte a) := by
  unfold performing
  cases hc : firstError i s with
  | pass => exact .inl ⟨rfl, rfl⟩
  | error e => exact .inr (.inl ⟨e, rfl, rfl⟩)
  | unwritten a => exact .inr (.inr ⟨a, rfl, rfl⟩)

/-- The check of RX_LEN passes on exactly from `least` to 2048. -/
theorem checkRxLen_of_le {least : Nat} {s : State} (k : Check) (h1 : least ≤ s.rxLen.toNat)
    (h2 : s.rxLen.toNat ≤ 2048) : checkRxLen least s k = k := by
  rw [checkRxLen, if_neg (by omega), if_neg (by omega)]

theorem checkIfid_of_lt {ifid : Byte} {s : State} (k : Check) (h : ifid.toNat < s.params.nif) :
    checkIfid ifid s k = k := by rw [checkIfid, if_neg (by omega)]

theorem checkRange_of_le {s : State} (k : Check) (h : s.arg0.toNat + s.arg1.toNat ≤ 0x1000) :
    checkRange s k = k := by rw [checkRange, if_neg (by omega)]

theorem checkField_of_le {s : State} (k : Check) (h : s.arg2.toNat + 2 ≤ 0x1000) : checkField s k = k := by
  rw [checkField, if_neg (by omega)]

/-- What the total length check finds, by the two bytes it reads. -/
theorem checkTotlen_of_hasBytes {s : State} {h l : Byte} (hb : HasBytes s.fmem 16 [h, l]) :
    checkTotlen s =
      if be16 h l < 28 ∨ s.rxLen.toNat < 14 + be16 h l then .error .badTotlen else .pass := by
  have hr : s.fmem.read 16 2 = .ok [h, l] := Memory.read_eq_ok_iff.mpr ⟨rfl, hb⟩
  rw [checkTotlen, hr]
  rfl

/-! ### Frame memory keeps its canonical form -/

/-- Empty memory is in canonical form. -/
theorem Memory.wf_nil : Memory.wf [] := ⟨List.Pairwise.nil, by simp⟩

theorem setMem_wf {a : Nat} {bs : List Byte} {s : State} (h : s.fmem.wf) (ha : a + bs.length ≤ 0x1000) :
    (setMem a bs s).fmem.wf := Memory.write_wf bs h ha

theorem startReset_wf (s : State) : (startReset s).fmem.wf := Memory.wf_nil

theorem reset_fmem_wf : State.reset.fmem.wf := Memory.wf_nil

/-- A byte outside a write of the state reads as before. -/
theorem setMem_readByte_outside {a x : Nat} {bs : List Byte} {s : State} (h : x < a ∨ a + bs.length ≤ x) :
    (setMem a bs s).fmem.readByte x = s.fmem.readByte x := Memory.readByte_write_outside _ bs h

/-- A sequence that does not meet a write is still there after it. -/
theorem hasBytes_setMem_of_disjoint {a b : Nat} {bs cs : List Byte} {s : State} (h : HasBytes s.fmem b cs)
    (hd : b + cs.length ≤ a ∨ a + bs.length ≤ b) : HasBytes (setMem a bs s).fmem b cs := by
  intro j c hj
  have hlt : j < cs.length := (List.getElem?_eq_some_iff.mp hj).1
  rw [setMem_readByte_outside (by omega), h j c hj]

/-- The sequence a write stored is there after it. -/
theorem hasBytes_setMem (a : Nat) (bs : List Byte) (s : State) : HasBytes (setMem a bs s).fmem a bs :=
  Memory.hasBytes_write _ _ _

/-- Two sequences that follow one another are one. -/
theorem hasBytes_append {m : Memory} {a : Nat} {bs cs : List Byte} :
    HasBytes m a (bs ++ cs) ↔ HasBytes m a bs ∧ HasBytes m (a + bs.length) cs := by
  constructor
  · intro h
    refine ⟨fun j b hj => h j b ?_, fun j b hj => ?_⟩
    · rw [List.getElem?_append_left (List.getElem?_eq_some_iff.mp hj).1, hj]
    · rw [Nat.add_assoc]
      exact h (bs.length + j) b (by rw [List.getElem?_append_right (by omega), Nat.add_sub_cancel_left, hj])
  · rintro ⟨h1, h2⟩ j b hj
    by_cases hlt : j < bs.length
    · exact h1 j b (by rwa [List.getElem?_append_left hlt] at hj)
    · rw [List.getElem?_append_right (by omega)] at hj
      have := h2 (j - bs.length) b hj
      rwa [Nat.add_assoc, Nat.add_sub_cancel' (by omega)] at this

/-- Memory holds one sequence of a given length at an address. -/
theorem hasBytes_unique {m : Memory} {a : Nat} {bs cs : List Byte} (hl : bs.length = cs.length)
    (h1 : HasBytes m a bs) (h2 : HasBytes m a cs) : bs = cs := by
  apply List.ext_getElem? fun j => ?_
  by_cases hj : j < bs.length
  · have e1 := h1 j _ (List.getElem?_eq_getElem hj)
    have e2 := h2 j _ (List.getElem?_eq_getElem (hl ▸ hj))
    rw [List.getElem?_eq_getElem hj, List.getElem?_eq_getElem (hl ▸ hj)]
    rw [e1] at e2
    exact e2
  · rw [List.getElem?_eq_none (by omega), List.getElem?_eq_none (by omega)]

/-! ### Operand sequences -/

@[simp] theorem wire_length (v : Word) : (wire v).length = 4 := rfl
@[simp] theorem tobe16_length (x : Half) : (tobe16 x).length = 2 := rfl
@[simp] theorem mac_length (s : State) (k : Byte) : (mac s k).length = 6 := rfl
@[simp] theorem ipw_length (s : State) (k : Byte) : (ipw s k).length = 4 := rfl

/-- The interface entry of a number below P_NIF is the one in the table. -/
theorem ifEntry_of_getElem? {s : State} {k : Byte} {e : IfEntry} (h : s.iftab[k.toNat]? = some e) :
    ifEntry s k = e := by rw [ifEntry, List.getD_eq_getElem?_getD, h, Option.getD_some]

end Sys2Proof.Machine
end

