-- ==== Sys2Proof/Laws/Bus.lean ====
section
/-! SUPPORT. The host bus: where a bus address lies, and what an access can do. -/

namespace Sys2Proof.Machine

/-- A bus address of the window is its offset. -/
@[simp] theorem windowOffset_base_add {p : Params} {off : Nat} (h : off < 0x2000) :
    windowOffset p (p.base + off) = some off := by
  rw [windowOffset, if_pos ⟨Nat.le_add_right _ _, by omega⟩, Nat.add_sub_cancel_left]

/-- A legal access in the window completes. -/
theorem hostAccess_of_legal {acc : Access} {off : Nat} {s : State} (ha : acc.addr = s.params.base + off)
    (ho : off < 0x2000) (hl : legalAccess off acc.width = true) :
    hostAccess acc s = .next (performAccess acc off s) := by
  rw [hostAccess, ha, windowOffset_base_add ho]
  exact if_pos hl

/-- A read of a register that BUSY does not make a hazard answers what the register holds. -/
theorem hostAccess_readReg {s : State} {off : Nat} {r : Reg} (hr : regAt s.params off = some r) (ho : off < 0x1000)
    (ha : off % 4 = 0) (hb : s.busy = false ∨ r.safeWhileBusy = true) :
    hostAccess (.read (s.params.base + off) .four) s = .next (respond (readReg s r) s) := by
  rw [hostAccess_of_legal rfl (by omega) (by simp [legalAccess, ho, ha, Access.width])]
  rcases hb with hb | hb <;> simp [performAccess, hostRead, ho, hr, hb]

/-- A write of a register that BUSY does not make a hazard is the register's own write. -/
theorem hostAccess_writeReg {s : State} {off : Nat} {r : Reg} {v : Word} (hr : regAt s.params off = some r)
    (ho : off < 0x1000) (ha : off % 4 = 0) (hb : s.busy = false ∨ r.hazardWrite = false) :
    hostAccess (.write (s.params.base + off) .four v) s = .next { writeReg r v s with resp := some .written } := by
  rw [hostAccess_of_legal rfl (by omega) (by simp [legalAccess, ho, ha, Access.width])]
  rcases hb with hb | hb <;> simp [performAccess, hostWrite, ho, hr, hb]

/-- An access that answers a next state was a legal one in the window. -/
theorem hostAccess_eq_next {acc : Access} {s t : State} (h : hostAccess acc s = .next t) :
    ∃ off, windowOffset s.params acc.addr = some off ∧ legalAccess off acc.width = true ∧
      t = performAccess acc off s := by
  unfold hostAccess at h
  split at h
  · cases h
  · next off hoff =>
    split at h
    · next hl => exact ⟨off, hoff, hl, by simpa using h.symm⟩
    · cases h

/-- What a legal read does to the engine: it answers, and may use up free bytes. -/
theorem hostRead_cases (off : Nat) (w : Width) (s : State) :
    ∃ v d, hostRead off w s = { s with resp := some (.value v), draws := d } := by
  unfold hostRead
  split
  · split
    · exact ⟨_, s.draws, rfl⟩
    · split
      · exact ⟨_, _, rfl⟩
      · exact ⟨_, s.draws, rfl⟩
  · split
    · exact ⟨_, _, rfl⟩
    · exact ⟨_, _, rfl⟩

/-- What a legal write does: nothing, the hazard mark, one register, or bytes of frame memory. -/
theorem hostWrite_cases (off : Nat) (w : Width) (v : Word) (s : State) :
    (off < 0x1000 ∧ regAt s.params off = none ∧ hostWrite off w v s = s) ∨
    (s.busy = true ∧ hostWrite off w v s = { s with hazard := true }) ∨
    (off < 0x1000 ∧ ∃ r, regAt s.params off = some r ∧ (s.busy = true → r.hazardWrite = false) ∧
      hostWrite off w v s = writeReg r v s) ∨
    (0x1000 ≤ off ∧ s.busy = false ∧ hostWrite off w v s = setMem (off - 0x1000) (writtenBytes v w.bytes) s) := by
  unfold hostWrite
  split
  · next hlt =>
    split
    · next hr => exact .inl ⟨hlt, hr, rfl⟩
    · next r hr =>
      by_cases hb : (s.busy && r.hazardWrite) = true
      · rw [if_pos hb]
        exact .inr (.inl ⟨by simp_all, rfl⟩)
      · rw [if_neg hb]
        exact .inr (.inr (.inl ⟨hlt, r, hr, fun h => by simpa [h] using hb, rfl⟩))
  · next hge =>
    by_cases hb : s.busy = true
    · rw [if_pos hb]
      exact .inr (.inl ⟨hb, rfl⟩)
    · rw [if_neg hb]
      exact .inr (.inr (.inr ⟨by omega, by simpa using hb, rfl⟩))

@[simp] theorem writtenBytes_length (v : Word) (w : Width) : (writtenBytes v w.bytes).length = w.bytes := by
  cases w <;> rfl

/-- A legal write keeps frame memory in its canonical form. -/
theorem hostWrite_wf {off : Nat} {w : Width} {v : Word} {s : State} (h : s.fmem.wf) (ho : off < 0x2000)
    (hl : legalAccess off w = true) : (hostWrite off w v s).fmem.wf := by
  obtain ⟨-, -, e⟩ | ⟨-, e⟩ | ⟨-, r, -, -, e⟩ | ⟨hge, -, e⟩ := hostWrite_cases off w v s
  · rwa [e]
  · rwa [e]
  · rw [e]
    cases r <;> try exact h
    · show (writeCtrl v s).fmem.wf
      unfold writeCtrl
      split
      · exact startReset_wf s
      · exact h
    · show (writeCmd v s).fmem.wf
      unfold writeCmd
      split <;> exact h
  · rw [e]
    refine setMem_wf h ?_
    rw [writtenBytes_length]
    have hl' : off % w.bytes = 0 := by simpa [legalAccess, Nat.not_lt.mpr hge] using hl
    cases w <;> simp only [Width.bytes] at hl' ⊢ <;> omega

end Sys2Proof.Machine
end

