-- ==== Sys2Proof/Laws/Checksum.lean ====
section
/-! SUPPORT. Small facts of the word sum and the end-around carry. -/

namespace Sys2Proof.Machine

@[simp] theorem wordSum_nil : wordSum [] = 0 := rfl
@[simp] theorem wordSum_singleton (h : Byte) : wordSum [h] = be16 h 0#8 := rfl
@[simp] theorem wordSum_cons_cons (h l : Byte) (bs : List Byte) :
    wordSum (h :: l :: bs) = be16 h l + wordSum bs := rfl

/-- Sums add where the first sequence has an even length. -/
theorem wordSum_append {as bs : List Byte} (h : as.length % 2 = 0) :
    wordSum (as ++ bs) = wordSum as + wordSum bs := by
  match as with
  | [] => simp
  | [x] => simp at h
  | x :: y :: rest =>
    have hr : rest.length % 2 = 0 := by simp only [List.length_cons] at h; omega
    rw [List.cons_append, List.cons_append, wordSum_cons_cons, wordSum_cons_cons, wordSum_append hr, Nat.add_assoc]

theorem be16_lt (h l : Byte) : be16 h l < 0x10000 := by
  have := h.isLt
  have := l.isLt
  unfold be16
  omega

/-- A sum of 16 bits is left as it is. -/
theorem foldCarry_of_le {acc : Nat} (fuel : Nat) (h : acc ≤ 0xFFFF) : foldCarry acc fuel = acc := by
  cases fuel with
  | zero => rfl
  | succ fuel => rw [foldCarry, if_neg (by omega)]

/-- One end-around carry. -/
theorem foldCarry_of_gt {acc : Nat} (fuel : Nat) (h : 0xFFFF < acc) :
    foldCarry acc (fuel + 1) = foldCarry (acc % 0x10000 + acc / 0x10000) fuel := by rw [foldCarry, if_pos h]

/-- A carry makes a sum above 16 bits smaller and keeps it modulo 0xFFFF. -/
theorem carry_lt_and_mod {acc : Nat} (h : 0xFFFF < acc) :
    acc % 0x10000 + acc / 0x10000 < acc ∧ 0 < acc % 0x10000 + acc / 0x10000 ∧
      (acc % 0x10000 + acc / 0x10000) % 0xFFFF = acc % 0xFFFF := by omega

end Sys2Proof.Machine
end

