-- ==== Sys2Proof/Laws/Trie.lean ====
section
/-! SUPPORT. Small facts of the node store: nodes after an update, links that stand, lengths, and the store that a list
of routes builds. -/

namespace Sys2Proof.Machine

open Sys2Proof.Safety

/-! ### One node -/

@[simp] theorem Node.child_empty (b : Bool) : Node.empty.child b = none := by cases b <;> rfl

@[simp] theorem Node.child_setChild_same (x : Node) (b : Bool) (k : Nat) : (x.setChild b k).child b = some k := by
  cases b <;> rfl

theorem Node.child_setChild_other {x : Node} {b c : Bool} (k : Nat) (h : c ≠ b) :
    (x.setChild b k).child c = x.child c := by cases b <;> cases c <;> simp_all [Node.setChild, Node.child]

@[simp] theorem Node.route_setChild (x : Node) (b : Bool) (k : Nat) : (x.setChild b k).route = x.route := by
  cases b <;> rfl

theorem nodeAt_of_length_le {nodes : List Node} {n : Nat} (h : nodes.length ≤ n) : nodeAt nodes n = Node.empty := by
  rw [nodeAt, List.getD_eq_getElem?_getD, List.getElem?_eq_none h, Option.getD_none]

theorem nodeAt_append_empty (nodes : List Node) (n : Nat) : nodeAt (nodes ++ [Node.empty]) n = nodeAt nodes n := by
  rcases lt_trichotomy n nodes.length with h | h | h
  · simp [nodeAt, List.getD_eq_getElem?_getD, List.getElem?_append_left h]
  · subst h
    rw [nodeAt_of_length_le (le_refl _)]
    simp [nodeAt, List.getD_eq_getElem?_getD]
  · rw [nodeAt_of_length_le (le_of_lt h), nodeAt_of_length_le (by simpa using h)]

theorem nodeAt_set (nodes : List Node) (n m : Nat) (x : Node) :
    nodeAt (nodes.set n x) m = if n = m ∧ n < nodes.length then x else nodeAt nodes m := by
  by_cases h : n = m
  · subst h
    by_cases hn : n < nodes.length
    · simp [nodeAt, List.getD_eq_getElem?_getD, hn]
    · simp [nodeAt, List.getD_eq_getElem?_getD, hn, List.set_eq_of_length_le (by omega : nodes.length ≤ n)]
  · simp [nodeAt, List.getD_eq_getElem?_getD, h]

/-! ### Links and lengths -/

theorem childOf_of_length_le {nodes : List Node} {n : Nat} (b : Bool) (h : nodes.length ≤ n) :
    childOf nodes n b = none := by rw [childOf, nodeAt_of_length_le h, Node.child_empty]

/-- The only link that `addChild` changes is the one it makes. -/
theorem childOf_addChild (nodes : List Node) (n m : Nat) (b c : Bool) :
    childOf (addChild nodes n b) m c =
      if n = m ∧ b = c ∧ n < nodes.length then some nodes.length else childOf nodes m c := by
  rw [childOf, addChild, nodeAt_append_empty, nodeAt_set]
  by_cases h : n = m ∧ n < nodes.length
  · obtain ⟨rfl, hn⟩ := h
    by_cases hbc : b = c
    · subst hbc
      simp [hn]
    · simp [hn, hbc, Node.child_setChild_other _ (Ne.symm hbc), childOf]
  · rw [if_neg h, if_neg (by tauto), childOf]

@[simp] theorem addChild_length (nodes : List Node) (n : Nat) (b : Bool) :
    (addChild nodes n b).length = nodes.length + 1 := by simp [addChild]

theorem nodeAt_route_addChild (nodes : List Node) (n m : Nat) (b : Bool) :
    (nodeAt (addChild nodes n b) m).route = (nodeAt nodes m).route := by
  rw [addChild, nodeAt_append_empty, nodeAt_set]
  split
  · next h => rw [Node.route_setChild, h.1]
  · rfl

@[simp] theorem setRoute_length (nodes : List Node) (n r : Nat) : (setRoute nodes n r).length = nodes.length := by
  simp [setRoute]

/-- Setting a route changes no link. -/
@[simp] theorem childOf_setRoute (nodes : List Node) (n r m : Nat) (b : Bool) :
    childOf (setRoute nodes n r) m b = childOf nodes m b := by
  rw [childOf, setRoute, nodeAt_set]
  split
  · next h => rw [childOf, ← h.1]; cases b <;> rfl
  · rfl

theorem nodeAt_route_setRoute (nodes : List Node) (n r m : Nat) :
    (nodeAt (setRoute nodes n r) m).route =
      if n = m ∧ n < nodes.length then some r else (nodeAt nodes m).route := by
  rw [setRoute, nodeAt_set]
  split <;> rfl

/-! ### The walks, one position at a time -/

theorem insertWalk_succ_of_some {p : Word} {i fuel : Nat} {nodes : List Node} {n created c : Nat}
    (h : childOf nodes n (kbit p i) = some c) :
    insertWalk p i (fuel + 1) nodes n created = insertWalk p (i + 1) fuel nodes c created := by
  rw [insertWalk, h]

theorem insertWalk_succ_of_none {p : Word} {i fuel : Nat} {nodes : List Node} {n created : Nat}
    (h : childOf nodes n (kbit p i) = none) :
    insertWalk p i (fuel + 1) nodes n created =
      insertWalk p (i + 1) fuel (addChild nodes n (kbit p i)) nodes.length (created + 1) := by
  rw [insertWalk, h]

/-- What an insertion's walk adds to the store it counts. -/
theorem insertWalk_length (p : Word) (i fuel : Nat) (nodes : List Node) (n created : Nat) :
    (insertWalk p i fuel nodes n created).nodes.length + created =
      nodes.length + (insertWalk p i fuel nodes n created).created := by
  induction fuel generalizing i nodes n created with
  | zero => rfl
  | succ fuel ih =>
    cases h : childOf nodes n (kbit p i) with
    | some c => rw [insertWalk_succ_of_some h, ih]
    | none =>
      have := ih (i + 1) (addChild nodes n (kbit p i)) nodes.length (created + 1)
      rw [addChild_length] at this
      rw [insertWalk_succ_of_none h]
      omega

/-- An insertion's walk keeps every link that stands. -/
theorem childOf_insertWalk {p : Word} {i fuel : Nat} {nodes : List Node} {n created m c : Nat} {b : Bool}
    (h : childOf nodes m b = some c) : childOf (insertWalk p i fuel nodes n created).nodes m b = some c := by
  induction fuel generalizing i nodes n created with
  | zero => exact h
  | succ fuel ih =>
    cases hc : childOf nodes n (kbit p i) with
    | some d => rw [insertWalk_succ_of_some hc]; exact ih h
    | none =>
      rw [insertWalk_succ_of_none hc]
      refine ih ?_
      rw [childOf_addChild, if_neg, h]
      rintro ⟨rfl, rfl, -⟩
      rw [h] at hc
      cases hc

/-- An insertion's walk changes no node's route. -/
theorem nodeAt_route_insertWalk (p : Word) (i fuel : Nat) (nodes : List Node) (n created m : Nat) :
    (nodeAt (insertWalk p i fuel nodes n created).nodes m).route = (nodeAt nodes m).route := by
  induction fuel generalizing i nodes n created with
  | zero => rfl
  | succ fuel ih =>
    cases hc : childOf nodes n (kbit p i) with
    | some d => rw [insertWalk_succ_of_some hc, ih]
    | none => rw [insertWalk_succ_of_none hc, ih, nodeAt_route_addChild]

theorem lookupWalk_succ_of_some {nodes : List Node} {routes : List RouteEntry} {a : Word} {i fuel n c : Nat}
    {best : Option Nat} (h : childOf nodes n (kbit a i) = some c) :
    lookupWalk nodes routes a i (fuel + 1) n best =
      lookupWalk nodes routes a (i + 1) fuel c (consider nodes routes c best) := by rw [lookupWalk, h]

theorem lookupWalk_succ_of_none {nodes : List Node} {routes : List RouteEntry} {a : Word} {i fuel n : Nat}
    {best : Option Nat} (h : childOf nodes n (kbit a i) = none) :
    lookupWalk nodes routes a i (fuel + 1) n best = best := by rw [lookupWalk, h]

/-! ### The store a list of routes builds -/

theorem buildFrom_append (extra : Fin 2) (nodes : List Node) (r : Nat) (es fs : List RouteEntry) :
    buildFrom extra nodes r (es ++ fs) = buildFrom extra (buildFrom extra nodes r es) (r + es.length) fs := by
  induction es generalizing nodes r with
  | nil => rfl
  | cons e es ih => rw [List.cons_append, buildFrom, ih, buildFrom, List.length_cons, Nat.add_right_comm, ← Nat.add_assoc]

/-- The store built with one more route at the end: the route is stored under its index. -/
theorem build_concat (extra : Fin 2) (routes : List RouteEntry) (e : RouteEntry) :
    build extra (routes ++ [e]) = storeRoute (build extra routes) e.pfx (depth extra e.mask) routes.length := by
  rw [build, buildFrom_append, Nat.zero_add]
  rfl

@[simp] theorem build_nil (extra : Fin 2) : build extra [] = [Node.empty] := rfl

end Sys2Proof.Machine
end

