-- ==== Sys2Proof/Laws/Step.lean ====
section
/-! SUPPORT. What one step can do, and what each command's meaning can do. -/

namespace Sys2Proof.Machine

open Sys2Proof.Safety

/-! ### The sequencer's turn -/

/-- What the sequencer's turn can be. -/
theorem engineTurn_cases (s : State) :
    (s.resetting = true ∧ s.rst = true ∧ engineTurn s = .next s) ∨
    (s.resetting = true ∧ s.rst = false ∧ engineTurn s = .next (endReset s)) ∨
    (s.resetting = false ∧ s.pending = false ∧ engineTurn s = .next s) ∨
    (s.resetting = false ∧ s.pending = true ∧
      ((∃ x, decode s.cmd = .error x ∧ engineTurn s = .next (errorState .illegal s)) ∨
        ∃ i, decode s.cmd = .ok i ∧ engineTurn s = exec i s)) := by
  unfold engineTurn runCommand
  cases hr : s.resetting
  · cases hp : s.pending
    · exact .inr (.inr (.inl ⟨rfl, rfl, by simp⟩))
    · refine .inr (.inr (.inr ⟨rfl, rfl, ?_⟩))
      cases hd : decode s.cmd with
      | error x => exact .inl ⟨x, rfl, rfl⟩
      | ok i => exact .inr ⟨i, rfl, rfl⟩
  · cases hrst : s.rst
    · exact .inr (.inl ⟨rfl, rfl, by simp⟩)
    · exact .inl ⟨rfl, rfl, by simp⟩

/-! ### The step -/

theorem step_of_hazard {s : State} (h : s.hazard = true) : step s = .fault .hazard := by rw [step, if_pos h]

theorem step_nil {s : State} (h : s.hazard = false) (hi : s.inputs = []) : step s = engineTurn s := by
  rw [step, h, hi]; rfl

theorem step_engine {s : State} {rest : List Input} (h : s.hazard = false) (hi : s.inputs = .engine :: rest) :
    step s = engineTurn { s with inputs := rest } := by rw [step, h, hi]; rfl

theorem step_access {s : State} {a : Access} {rest : List Input} (h : s.hazard = false)
    (hi : s.inputs = .access a :: rest) : step s = hostAccess a { s with inputs := rest } := by
  rw [step, h, hi]; rfl

theorem step_wait {s : State} {rest : List Input} (h : s.hazard = false) (hi : s.inputs = .wait :: rest) :
    step s = .next (hostWait { s with inputs := rest }) := by rw [step, h, hi]; rfl

theorem step_rstAssert {s : State} {rest : List Input} (h : s.hazard = false) (hi : s.inputs = .rstAssert :: rest) :
    step s = .next (rstAsserted { s with inputs := rest }) := by rw [step, h, hi]; rfl

theorem step_rstDeassert {s : State} {rest : List Input} (h : s.hazard = false)
    (hi : s.inputs = .rstDeassert :: rest) : step s = .next (rstDeasserted { s with inputs := rest }) := by
  rw [step, h, hi]; rfl

/-- Everything a step that answers a next state can have been. -/
theorem step_eq_next {s t : State} (h : step s = .next t) :
    s.hazard = false ∧
    ((s.inputs = [] ∧ engineTurn s = .next t) ∨
      (∃ rest, s.inputs = .engine :: rest ∧ engineTurn { s with inputs := rest } = .next t) ∨
      (∃ a rest, s.inputs = .access a :: rest ∧ hostAccess a { s with inputs := rest } = .next t) ∨
      (∃ rest, s.inputs = .wait :: rest ∧ t = hostWait { s with inputs := rest }) ∨
      (∃ rest, s.inputs = .rstAssert :: rest ∧ t = rstAsserted { s with inputs := rest }) ∨
      ∃ rest, s.inputs = .rstDeassert :: rest ∧ t = rstDeasserted { s with inputs := rest }) := by
  by_cases hz : s.hazard = true
  · rw [step_of_hazard hz] at h
    cases h
  rw [Bool.not_eq_true] at hz
  refine ⟨hz, ?_⟩
  cases hi : s.inputs with
  | nil => exact .inl ⟨rfl, by rwa [step_nil hz hi] at h⟩
  | cons x rest =>
    cases x with
    | engine => exact .inr (.inl ⟨rest, rfl, by rwa [step_engine hz hi] at h⟩)
    | access a => exact .inr (.inr (.inl ⟨a, rest, rfl, by rwa [step_access hz hi] at h⟩))
    | wait =>
      rw [step_wait hz hi] at h
      exact .inr (.inr (.inr (.inl ⟨rest, rfl, (Host.Outcome.next.inj h).symm⟩)))
    | rstAssert =>
      rw [step_rstAssert hz hi] at h
      exact .inr (.inr (.inr (.inr (.inl ⟨rest, rfl, (Host.Outcome.next.inj h).symm⟩))))
    | rstDeassert =>
      rw [step_rstDeassert hz hi] at h
      exact .inr (.inr (.inr (.inr (.inr ⟨rest, rfl, (Host.Outcome.next.inj h).symm⟩))))

/-! ### The results of a lookup -/

/-- A lookup's results are a hit or a miss. -/
theorem lookupResult_cases (s : State) :
    (∃ best r, lookupBest s.nodes s.routes s.arg0 = some best ∧ s.routes[best]? = some r ∧
      lookupResult s = lookupHit best r s) ∨
    ((∀ best r, lookupBest s.nodes s.routes s.arg0 = some best → s.routes[best]? ≠ some r) ∧
      lookupResult s = lookupMiss s) := by
  unfold lookupResult
  cases h : lookupBest s.nodes s.routes s.arg0 with
  | none => exact .inr ⟨by simp, rfl⟩
  | some best =>
    cases hr : s.routes[best]? with
    | none =>
      refine .inr ⟨fun b r hb => ?_, by simp [hr]⟩
      cases hb
      simp [hr]
    | some r => exact .inl ⟨best, r, rfl, hr, by simp [hr]⟩

end Sys2Proof.Machine
end

