-- ==== Sys2Proof/Laws/Exec.lean ====
section
/-! SUPPORT. What every command has in common: its checks come first, and an error is the whole of its effect; then,
per command, what it performs once its checks pass. -/

namespace Sys2Proof.Machine

open Sys2Proof.Safety

/-- A command whose checks find an error reports it, and that is all. -/
theorem exec_of_error {i : Instr} {s : State} {e : ErrorCode} (h : firstError i s = .error e) :
    exec i s = .next (errorState e s) := by
  cases i <;> simp only [exec, execLpmInsert, execLpmLookup, execCsum, execCsumFill, execIcmpEchoReply,
    execIcmpDestUnreach, execIcmpTimeExceeded, execArpRequest, execArpReply, performing_of_error _ h]

/-- A command whose checks meet a byte with no value stops on it. -/
theorem exec_of_unwritten {i : Instr} {s : State} {a : Nat} (h : firstError i s = .unwritten a) :
    exec i s = .fault (.unwrittenByte a) := by
  cases i <;> simp only [exec, execLpmInsert, execLpmLookup, execCsum, execCsumFill, execIcmpEchoReply,
    execIcmpDestUnreach, execIcmpTimeExceeded, execArpRequest, execArpReply, performing, h]

/-- No check ever finds the code NONE. -/
theorem firstError_ne_none (i : Instr) (s : State) : firstError i s ≠ .error .none := by
  cases i <;> simp only [firstError, checkCapacity, checkRange, checkField, checkRxLen, checkTotlen, checkIfid] <;>
    repeat' split
  all_goals simp_all

/-! ### What each command performs -/

theorem exec_lpmInsert_of_pass {s : State} (h : firstError .lpmInsert s = .pass) :
    exec .lpmInsert s = performLpmInsert s := by
  rw [exec, execLpmInsert, performing_of_pass _ h]

theorem exec_lpmLookup (s : State) : exec .lpmLookup s = .next (completeOk (lookupResult s)) := by
  rw [exec, execLpmLookup, performing_of_pass _ rfl]

theorem exec_csum_of_pass {s : State} (h : firstError .csum s = .pass) :
    exec .csum s = reading s.fmem s.arg0.toNat s.arg1.toNat fun bs =>
      .next (completeOk (csumResult (internetCsum bs) s)) := by
  rw [exec, execCsum, performing_of_pass _ h]

theorem exec_csumFill_of_pass {s : State} (h : firstError .csumFill s = .pass) :
    exec .csumFill s =
      reading (setMem s.arg2.toNat [0x00#8, 0x00#8] s).fmem s.arg0.toNat s.arg1.toNat fun bs =>
        .next (completeOk (csumResult (internetCsum bs)
          (setMem s.arg2.toNat (tobe16 (internetCsum bs)) (setMem s.arg2.toNat [0x00#8, 0x00#8] s)))) := by
  rw [exec, execCsumFill, performing_of_pass _ h]

theorem exec_icmpDestUnreach_of_pass {k : Byte} {s : State} (h : firstError (.icmpDestUnreach k) s = .pass) :
    exec (.icmpDestUnreach k) s = buildIcmpError 0x03#8 k s := by
  rw [exec, execIcmpDestUnreach, performing_of_pass _ h]

theorem exec_icmpTimeExceeded_of_pass {k : Byte} {s : State} (h : firstError (.icmpTimeExceeded k) s = .pass) :
    exec (.icmpTimeExceeded k) s = buildIcmpError 0x0B#8 k s := by
  rw [exec, execIcmpTimeExceeded, performing_of_pass _ h]

theorem exec_arpRequest_of_pass {k : Byte} {s : State} (h : firstError (.arpRequest k) s = .pass) :
    exec (.arpRequest k) s =
      sendArp k (arpFrame s k (List.replicate 6 0xFF#8) 0x01#8 (List.replicate 6 0x00#8) (wire s.arg0)) s := by
  rw [exec, execArpRequest, performing_of_pass _ h]

theorem exec_arpReply_of_pass {k : Byte} {s : State} (h : firstError (.arpReply k) s = .pass) :
    exec (.arpReply k) s =
      reading s.fmem 6 6 fun rmac => reading s.fmem 22 6 fun rsha => reading s.fmem 28 4 fun rspa =>
        sendArp k (arpFrame s k rmac 0x02#8 rsha rspa) s := by
  rw [exec, execArpReply, performing_of_pass _ h]

/-- A command that answers a next state passed its checks, or reported the first error. -/
theorem exec_eq_next_cases {i : Instr} {s t : State} (h : exec i s = .next t) :
    firstError i s = .pass ∨ ∃ e, e ≠ .none ∧ firstError i s = .error e ∧ t = errorState e s := by
  cases hc : firstError i s with
  | pass => exact .inl rfl
  | error e =>
    rw [exec_of_error hc] at h
    exact .inr ⟨e, fun he => firstError_ne_none i s (he ▸ hc), rfl, (Host.Outcome.next.inj h).symm⟩
  | unwritten a =>
    rw [exec_of_unwritten hc] at h
    cases h

end Sys2Proof.Machine
end

