-- ==== Sys2Proof/Laws/PerInstr.lean ====
section
/-! SUPPORT. The family of facts stated per command: its word is a legal command word (spec/30_encoding.md R93). -/

namespace Sys2Proof.Laws

theorem opcodeField_commandWord (k op : Byte) : opcodeField (commandWord k op) = op := by
  apply BitVec.eq_of_getLsbD_eq
  intro i hi
  have h : i < 32 := by omega
  simp [opcodeField, commandWord, hi, h]

theorem ifidField_commandWord (k op : Byte) : ifidField (commandWord k op) = k := by
  apply BitVec.eq_of_getLsbD_eq
  intro i hi
  have h : 8 + i < 32 := by omega
  simp [ifidField, commandWord, hi, h]

theorem rsvdField_commandWord (k op : Byte) : rsvdField (commandWord k op) = 0#16 := by
  apply BitVec.eq_of_getLsbD_eq
  intro i hi
  have h : 8 ≤ 16 + i - 8 := by omega
  have h' : op.getLsbD (16 + i) = false := BitVec.getLsbD_of_ge op _ (by omega)
  simp [rsvdField, commandWord, hi, h, h']

/-- A command word made of its fields is legal when its opcode is defined and its IFID allowed. -/
theorem legal_commandWord (k op : Byte) :
    CommandWord.legal (commandWord k op) =
      ([0x01#8, 0x02#8, 0x10#8, 0x11#8, 0x20#8, 0x21#8, 0x22#8, 0x30#8, 0x31#8].contains op &&
        ([0x21#8, 0x22#8, 0x30#8, 0x31#8].contains op || k == 0#8)) := by
  have h0 := opcodeField_commandWord k op
  have h1 := ifidField_commandWord k op
  have h2 := rsvdField_commandWord k op
  unfold opcodeField at h0
  unfold ifidField at h1
  unfold rsvdField at h2
  simp only [CommandWord.legal, CommandWord.opcodeDefined, CommandWord.rsvdZero, CommandWord.ifidAllowed, h0, h1, h2,
    beq_self_eq_true, Bool.and_true]

/-- The word of a command is a legal command word. -/
def EncodeLegal.Statement (i : Instr) : Prop := CommandWord.legal (encode i) = true

theorem EncodeLegal.lpmInsert : EncodeLegal.Statement .lpmInsert := legal_commandWord _ _
theorem EncodeLegal.lpmLookup : EncodeLegal.Statement .lpmLookup := legal_commandWord _ _
theorem EncodeLegal.csum : EncodeLegal.Statement .csum := legal_commandWord _ _
theorem EncodeLegal.csumFill : EncodeLegal.Statement .csumFill := legal_commandWord _ _
theorem EncodeLegal.icmpEchoReply : EncodeLegal.Statement .icmpEchoReply := legal_commandWord _ _

theorem EncodeLegal.icmpDestUnreach (k : Byte) : EncodeLegal.Statement (.icmpDestUnreach k) := by
  rw [EncodeLegal.Statement, encode, legal_commandWord]; rfl

theorem EncodeLegal.icmpTimeExceeded (k : Byte) : EncodeLegal.Statement (.icmpTimeExceeded k) := by
  rw [EncodeLegal.Statement, encode, legal_commandWord]; rfl

theorem EncodeLegal.arpRequest (k : Byte) : EncodeLegal.Statement (.arpRequest k) := by
  rw [EncodeLegal.Statement, encode, legal_commandWord]; rfl

theorem EncodeLegal.arpReply (k : Byte) : EncodeLegal.Statement (.arpReply k) := by
  rw [EncodeLegal.Statement, encode, legal_commandWord]; rfl

end Sys2Proof.Laws
end

