-- ==== Sys2Proof/Machine/HostProgram.lean ====
section
/-! DEFINITION. The host program syntax and the pseudo-instructions (spec/30_encoding.md R102, R103), as the inputs they
stand for. A program is a list of inputs put before the machine. -/

namespace Sys2Proof.Machine.HostProgram

open Sys2Proof.Machine

/-- `WR off, v`. -/
def wr (p : Params) (off : Nat) (v : Word) : List Input := [.access (.write (p.base + off) .four v)]

/-- `RD off`. -/
def rd (p : Params) (off : Nat) : List Input := [.access (.read (p.base + off) .four)]

/-- `FB a, [b0, b1, ...]`. -/
def fb (p : Params) (a : Nat) : List Byte → List Input
  | [] => []
  | b :: bs => .access (.write (p.base + 0x1000 + a) .one (b.setWidth 32)) :: fb p (a + 1) bs

/-- `FR a, n`. -/
def fr (p : Params) (a : Nat) : Nat → List Input
  | 0 => []
  | n + 1 => .access (.read (p.base + 0x1000 + a) .one) :: fr p (a + 1) n

/-- `CMD w`, then `WAIT`. -/
def cmdWait (p : Params) (w : Word) : List Input := wr p 0x00C w ++ [.wait]

/-- `LPM_INSERT p, m, nh, e`. -/
def lpmInsert (p : Params) (pfx mask nextHop egress : Word) : List Input :=
  wr p 0x010 pfx ++ wr p 0x014 mask ++ wr p 0x018 nextHop ++ wr p 0x01C egress ++ cmdWait p (encode .lpmInsert)

/-- `LPM_LOOKUP d`. -/
def lpmLookup (p : Params) (d : Word) : List Input := wr p 0x010 d ++ cmdWait p (encode .lpmLookup)

/-- `CSUM a, n`. -/
def csum (p : Params) (a n : Word) : List Input := wr p 0x010 a ++ wr p 0x014 n ++ cmdWait p (encode .csum)

/-- `CSUM_FILL a, n, f`. -/
def csumFill (p : Params) (a n f : Word) : List Input :=
  wr p 0x010 a ++ wr p 0x014 n ++ wr p 0x018 f ++ cmdWait p (encode .csumFill)

/-- `ICMP_ECHO_REPLY`. -/
def icmpEchoReply (p : Params) : List Input := cmdWait p (encode .icmpEchoReply)

/-- `ICMP_DEST_UNREACH k`. -/
def icmpDestUnreach (p : Params) (k : Byte) : List Input := cmdWait p (encode (.icmpDestUnreach k))

/-- `ICMP_TIME_EXCEEDED k`. -/
def icmpTimeExceeded (p : Params) (k : Byte) : List Input := cmdWait p (encode (.icmpTimeExceeded k))

/-- `ARP_REQUEST k, t`. -/
def arpRequest (p : Params) (k : Byte) (t : Word) : List Input :=
  wr p 0x010 t ++ cmdWait p (encode (.arpRequest k))

/-- `ARP_REPLY k`. -/
def arpReply (p : Params) (k : Byte) : List Input := cmdWait p (encode (.arpReply k))

/-- `IP_CHECK`. -/
def ipCheck (p : Params) : List Input := csum p 0x00E#32 20#32

/-- `IP_REFILL`. -/
def ipRefill (p : Params) : List Input := csumFill p 0x00E#32 20#32 0x018#32

/-- `SRESET`. -/
def sreset (p : Params) : List Input := wr p 0x004 1#32 ++ [.wait]

/-- `SETIF k, ip, maclo, machi`. -/
def setif (p : Params) (k : Nat) (ip maclo machi : Word) : List Input :=
  wr p (0x100 + 16 * k) ip ++ wr p (0x104 + 16 * k) maclo ++ wr p (0x108 + 16 * k) machi

end Sys2Proof.Machine.HostProgram
end

