-- ==== Sys2Proof/Tests/Slice0.lean ====
section
/-! SUPPORT. Tests of one step each, their expected results taken from spec/95_test_vectors.md and the encodings of
30_encoding.md, and a witness for the hypotheses of every statement. -/

namespace Sys2Proof.Tests

open Sys2Proof Sys2Proof.Machine Sys2Proof.Safety

/-! ### Helpers -/

/-- The state a step leaves, if it leaves one. -/
def after : Result → Option State
  | .next s => some s
  | .fault _ => none
  | .refused _ => none

/-- One field of the state a step leaves. -/
def afterGet {α : Type} (r : Result) (f : State → α) : Option α := (after r).map f

/-- The fault a step ends in, if it ends in one. -/
def faultOf : Result → Option Fault
  | .next _ => none
  | .fault f => some f
  | .refused _ => none

/-- The refusal a step ends in, if it ends in one. -/
def refusalOf : Result → Option Refusal
  | .next _ => none
  | .fault _ => none
  | .refused r => some r

/-- A byte sequence from its numbers. -/
def bytes (l : List Nat) : List Byte := l.map (BitVec.ofNat 8)

/-- An instance with P_DEPTH_EXTRA = `e`, the rest the spec default. -/
def instanceE (e : Fin 2) : Params := { Params.specDefault with depthExtra := e }

/-- The interface table of 95_test_vectors.md, common setup. -/
def table : List IfEntry :=
  [⟨0x0100A8C0#32, 0xEFBEADDE#32, 0x0000#16⟩, ⟨0x0101A8C0#32, 0xEFBEADDE#32, 0x0100#16⟩,
   ⟨0x0100000A#32, 0xEFBEADDE#32, 0x0200#16⟩, ⟨0x010010AC#32, 0xEFBEADDE#32, 0x0300#16⟩]

/-- A reset state with the common setup's interfaces, received bytes at FMEM 0, RX_LEN, and three operands. -/
def setup (rx : List Byte) (len : Half) (a0 a1 a2 : Word) : State :=
  { State.reset with iftab := table, fmem := Memory.write [] 0 rx, rxLen := len, arg0 := a0, arg1 := a1, arg2 := a2 }

/-- The frame F1 of 95_test_vectors.md: an echo request, TTL 1. -/
def frame1 : List Byte :=
  bytes [0xde, 0xad, 0xbe, 0xef, 0x00, 0x01, 0x02, 0x00, 0x00, 0x00, 0x00, 0xaa, 0x08, 0x00] ++
  bytes [0x45, 0x00, 0x00, 0x24, 0x1c, 0x46, 0x40, 0x00, 0x01, 0x01, 0x90, 0xe4] ++
  bytes [0xc0, 0xa8, 0x01, 0x02, 0x0a, 0x00, 0x01, 0x05] ++
  bytes [0x08, 0x00, 0xd4, 0xb5, 0x12, 0x34, 0x00, 0x01, 0x41, 0x42, 0x43, 0x44, 0x45, 0x46, 0x47, 0x48]

/-- The frame F3: an echo request for interface 1. -/
def frame3 : List Byte :=
  bytes [0xde, 0xad, 0xbe, 0xef, 0x00, 0x01, 0x02, 0x00, 0x00, 0x00, 0x00, 0xaa, 0x08, 0x00] ++
  bytes [0x45, 0x00, 0x00, 0x24, 0x1c, 0x46, 0x40, 0x00, 0x40, 0x01, 0x9b, 0x3f] ++
  bytes [0xc0, 0xa8, 0x01, 0x02, 0xc0, 0xa8, 0x01, 0x01] ++
  bytes [0x08, 0x00, 0xd4, 0xb5, 0x12, 0x34, 0x00, 0x01, 0x41, 0x42, 0x43, 0x44, 0x45, 0x46, 0x47, 0x48]

/-- The frame RQ: an ARP request for 192.168.1.1. -/
def frameRq : List Byte :=
  bytes [0xff, 0xff, 0xff, 0xff, 0xff, 0xff, 0x02, 0x00, 0x00, 0x00, 0x00, 0xaa, 0x08, 0x06, 0x00, 0x01, 0x08, 0x00] ++
  bytes [0x06, 0x04, 0x00, 0x01, 0x02, 0x00, 0x00, 0x00, 0x00, 0xaa, 0xc0, 0xa8, 0x01, 0x02] ++
  bytes [0x00, 0x00, 0x00, 0x00, 0x00, 0x00, 0xc0, 0xa8, 0x01, 0x01]

/-- The routes A and B of vector V-LPM-1. -/
def routeA : RouteEntry := ⟨0x0000000A#32, 0x000000FF#32, 0x0201A8C0#32, 1#8⟩
def routeB : RouteEntry := ⟨0x0001000A#32, 0x00FFFFFF#32, 0x0200A8C0#32, 0#8⟩

/-- A state of the instance `e` with both routes of V-LPM-1 stored and the address `a` in ARG0. -/
def withRoutes (e : Fin 2) (a : Word) : State :=
  { State.resetWith (instanceE e) with routes := [routeA, routeB], nodes := build e [routeA, routeB], arg0 := a }

/-- The step that performs the command word `w`. -/
def runWord (s : State) (w : Nat) : Result := step (s.withFetchWord 32 w)

/-! ### Decoding: one word of every row, written out bit by bit from 30_encoding.md R92 -/

theorem test_decode_lpm_insert : decode 0b00000000000000000000000000000001#32 = .ok .lpmInsert := by decide
theorem test_decode_lpm_lookup : decode 0b00000000000000000000000000000010#32 = .ok .lpmLookup := by decide
theorem test_decode_csum : decode 0b00000000000000000000000000010000#32 = .ok .csum := by decide
theorem test_decode_csum_fill : decode 0b00000000000000000000000000010001#32 = .ok .csumFill := by decide
theorem test_decode_icmp_echo_reply : decode 0b00000000000000000000000000100000#32 = .ok .icmpEchoReply := by decide
theorem test_decode_icmp_dest_unreach :
    decode 0b00000000000000000000000100100001#32 = .ok (.icmpDestUnreach 1#8) := by decide
theorem test_decode_icmp_time_exceeded :
    decode 0b00000000000000001000000000100010#32 = .ok (.icmpTimeExceeded 0x80#8) := by decide
theorem test_decode_arp_request : decode 0b00000000000000000000001100110000#32 = .ok (.arpRequest 3#8) := by decide
theorem test_decode_arp_reply : decode 0b00000000000000001111111100110001#32 = .ok (.arpReply 0xFF#8) := by decide

/-- V-ENC-1, V-ENC-2, V-ENC-3, V-ENC-4. -/
theorem test_decode_illegal :
    decode 0x00000000#32 = .error .reservedOpcode ∧ decode 0x00000003#32 = .error .reservedOpcode ∧
    decode 0x00000102#32 = .error .unusedIfid ∧ decode 0x00010001#32 = .error .reservedBits := by decide

theorem test_decode_table_word : decodeTableWord 32 0x0122 = some (.icmpTimeExceeded 1#8) := by decide

/-! ### Well-formedness: an ill-formed term for each check -/

theorem test_params_default_legal : Params.specDefault.legal := by decide
theorem test_params_no_route : ¬ { Params.specDefault with routeCap := 0 }.legal := by decide
theorem test_params_many_routes : ¬ { Params.specDefault with routeCap := 2 ^ 24 + 1 }.legal := by decide
theorem test_params_no_node : ¬ { Params.specDefault with nodeCap := 0 }.legal := by decide
theorem test_params_many_nodes : ¬ { Params.specDefault with nodeCap := 2 ^ 32 }.legal := by decide
theorem test_params_no_interface : ¬ { Params.specDefault with nif := 0 }.legal := by decide
theorem test_params_many_interfaces : ¬ { Params.specDefault with nif := 17 }.legal := by decide
theorem test_params_base_unaligned : ¬ { Params.specDefault with base := 0x1000 }.legal := by decide
theorem test_word_reserved_opcode : CommandWord.opcodeDefined 0x00000012#32 = false := by decide
theorem test_word_reserved_bits : CommandWord.rsvdZero 0x00010021#32 = false := by decide
theorem test_word_unused_ifid : CommandWord.ifidAllowed 0x00000110#32 = false := by decide
theorem test_instr_no_such_interface : Instr.wf Params.specDefault (.arpReply 4#8) = false := by decide
theorem test_instr_last_interface : Instr.wf Params.specDefault (.arpReply 3#8) = true := by decide

/-! ### One command each -/

/-- V-LPM-1 step 1: RES0 = 0, RES1 = 9, NODE_COUNT 10, ROUTE_COUNT 1. -/
theorem test_insert_faithful :
    afterGet (runWord { State.reset with arg0 := 0x0A#32, arg1 := 0xFF#32, arg2 := 0x0201A8C0#32, arg3 := 1#32 } 0x01)
      (fun t => (t.res0, t.res1, t.nodes.length, t.routes, statusWord t)) =
    some (0#32, 9#32, 10, [routeA], 0x00000002#32) := by decide +kernel

/-- V-LPM-1 step 2 with E = 0: RES0 = 1, RES1 = 16, NODE_COUNT 25. -/
theorem test_insert_corrected :
    afterGet (runWord { State.resetWith (instanceE 0) with
        routes := [routeA], nodes := build 0 [routeA]
        arg0 := 0x0001000A#32, arg1 := 0x00FFFFFF#32, arg2 := 0x0200A8C0#32 } 0x01)
      (fun t => (t.res0, t.res1, t.nodes.length)) = some (1#32, 16#32, 25) := by decide +kernel

/-- V-LPM-1: 10.0.1.5 gives route A with E = 1 (conflict C1). -/
theorem test_lookup_faithful :
    afterGet (runWord (withRoutes 1 0x0501000A#32) 0x02) (fun t => (t.res0, t.res1, t.res2, t.res3, statusWord t)) =
    some (0x0000000A#32, 0x000000FF#32, 0x0201A8C0#32, 0x00000001#32, 0x0000000A#32) := by decide +kernel

/-- V-LPM-1: 10.0.1.5 gives route B with E = 0, and 10.0.1.4 gives it with E = 1. -/
theorem test_lookup_second_route :
    afterGet (runWord (withRoutes 0 0x0501000A#32) 0x02) (fun t => t.res3) = some 0x00000100#32 ∧
    afterGet (runWord (withRoutes 1 0x0401000A#32) 0x02) (fun t => (t.res0, t.res3)) =
      some (0x0001000A#32, 0x00000100#32) := by decide +kernel

/-- V-CS-1 and V-CS-4. -/
theorem test_csum :
    internetCsum (bytes [0x00, 0x01, 0xf2, 0x03, 0xf4, 0xf5, 0xf6, 0xf7]) = 0x220D#16 ∧
    internetCsum (bytes [0x01, 0x02, 0x03]) = 0xFBFD#16 := by decide

/-- V-CS-6: the header of F1 checks to 0. -/
theorem test_csum_valid_header :
    afterGet (runWord (setup frame1 50#16 0x00E#32 20#32 0#32) 0x10) (fun t => (t.res0, statusWord t)) =
    some (0#32, 0x00000002#32) := by decide +kernel

/-- L1-2: the header of F1 with its field to be filled stores 90 e4. -/
theorem test_csum_fill :
    afterGet (runWord (setup (frame1.set 24 0#8) 50#16 0x00E#32 20#32 0x018#32) 0x11)
      (fun t => (t.res0, t.fmem.read 0x018 2)) =
    some (0x000090E4#32, .ok [0x90#8, 0xe4#8]) := by decide +kernel

/-- V-CS-8: the field outside the range. -/
theorem test_csum_fill_outside :
    afterGet (runWord (setup (bytes [1, 2, 3, 4]) 0#16 0#32 4#32 0x010#32) 0x11)
      (fun t => (t.res0, t.fmem.read 0x010 2)) = some (0x0000FBF9#32, .ok [0xfb#8, 0xf9#8]) := by decide +kernel

/-- V-ECHO-1. -/
theorem test_echo_reply :
    afterGet (runWord (setup frame3 50#16 0#32 0#32 0#32) 0x20) (fun t => (t.res0, t.fmem.read 26 12, t.txLen)) =
    some (0x0000DCB5#32,
      .ok (bytes [0xc0, 0xa8, 0x01, 0x01, 0xc0, 0xa8, 0x01, 0x02, 0x00, 0x00, 0xdc, 0xb5]), 0#16) := by decide +kernel

/-- V-ECHO-3 (odd total length) and T = 37 over a 50-byte frame (BAD_TOTLEN). -/
theorem test_echo_reply_total_length :
    afterGet (runWord (setup (frame1.set 17 0x23#8) 50#16 0#32 0#32 0#32) 0x20) (fun t => t.res0) =
      some 0x0000DCFD#32 ∧
    afterGet (runWord (setup (frame1.set 17 0x25#8) 50#16 0#32 0#32 0#32) 0x20) statusWord =
      some 0x00000506#32 := by decide +kernel

/-- V-TE-1. -/
theorem test_time_exceeded :
    afterGet (runWord (setup frame1 50#16 0#32 0#32 0#32) 0x0122) (fun t => (t.res0, t.res1, t.txLen, t.txIf)) =
      some (0x0000F784#32, 0x00005395#32, 50#16, 1#8) ∧
    afterGet (runWord (setup frame1 50#16 0#32 0#32 0#32) 0x0122) (fun t => t.fmem.read 0x800 50) =
      some (.ok (
        bytes [0x02, 0x00, 0x00, 0x00, 0x00, 0xaa, 0xde, 0xad, 0xbe, 0xef, 0x00, 0x01, 0x08, 0x00] ++
        bytes [0x45, 0x00, 0x00, 0x24, 0x00, 0x01, 0x00, 0x00, 0x40, 0x01, 0xf7, 0x84] ++
        bytes [0xc0, 0xa8, 0x01, 0x01, 0xc0, 0xa8, 0x01, 0x02, 0x0b, 0x00, 0x53, 0x95, 0x00, 0x00, 0x00, 0x00] ++
        bytes [0x45, 0x00, 0x00, 0x24, 0x1c, 0x46, 0x40, 0x00])) := by decide +kernel

/-- V-DU-1's ICMP checksum and type, and IFID 4 = P_NIF with RX_LEN = 3000: BAD_IF. -/
theorem test_dest_unreach :
    afterGet (runWord (setup frame1 50#16 0#32 0#32 0#32) 0x0121) (fun t => (t.res1, t.fmem.read 0x822 4)) =
      some (0x00005B95#32, .ok [0x03#8, 0x00#8, 0x5b#8, 0x95#8]) ∧
    afterGet (runWord (setup frame1 3000#16 0#32 0#32 0#32) 0x0421) statusWord = some 0x00000206#32 := by decide +kernel

/-- V-AREQ-1. -/
theorem test_arp_request :
    afterGet (runWord (setup [] 0#16 0x0200A8C0#32 0#32 0#32) 0x30) (fun t => (t.txLen, t.fmem.read 0x800 42)) =
    some (42#16, .ok (
      bytes [0xff, 0xff, 0xff, 0xff, 0xff, 0xff, 0xde, 0xad, 0xbe, 0xef, 0x00, 0x00, 0x08, 0x06, 0x00, 0x01, 0x08] ++
      bytes [0x00, 0x06, 0x04, 0x00, 0x01, 0xde, 0xad, 0xbe, 0xef, 0x00, 0x00, 0xc0, 0xa8, 0x00, 0x01, 0x00, 0x00] ++
      bytes [0x00, 0x00, 0x00, 0x00, 0xc0, 0xa8, 0x00, 0x02])) := by decide +kernel

/-- V-ARP-1. -/
theorem test_arp_reply :
    afterGet (runWord (setup frameRq 42#16 0#32 0#32 0#32) 0x0131) (fun t => (t.txIf, t.fmem.read 0x800 42)) =
    some (1#8, .ok (
      bytes [0x02, 0x00, 0x00, 0x00, 0x00, 0xaa, 0xde, 0xad, 0xbe, 0xef, 0x00, 0x01, 0x08, 0x06, 0x00, 0x01, 0x08] ++
      bytes [0x00, 0x06, 0x04, 0x00, 0x02, 0xde, 0xad, 0xbe, 0xef, 0x00, 0x01, 0xc0, 0xa8, 0x01, 0x01, 0x02, 0x00] ++
      bytes [0x00, 0x00, 0x00, 0xaa, 0xc0, 0xa8, 0x01, 0x02])) := by decide +kernel

/-- A word that is not legal completes with ILLEGAL (V-ENC-1, V-ENC-4), and CSUM of an unwritten byte faults (R63). -/
theorem test_illegal_and_valueless :
    afterGet (runWord State.reset 0) statusWord = some 0x00000106#32 ∧
    afterGet (runWord State.reset 0x00010001) (fun t => (statusWord t, t.routes)) = some (0x00000106#32, []) ∧
    faultOf (runWord { State.reset with arg1 := 1#32 } 0x10) = some (.unwrittenByte 0) := by decide +kernel

/-! ### The host bus -/

/-- The state after a bus access from the reset state changed by `f`. -/
def afterAccess (f : State → State) (a : Access) : Result := step { f State.reset with inputs := [.access a] }

/-- V-ENC-8, V-ENC-9. -/
theorem test_read_constants :
    afterGet (afterAccess id (.read 0x000 .four)) State.resp = some (some (.value 0x4C504D01#32)) ∧
    afterGet (afterAccess id (.read 0x048 .four)) State.resp = some (some (.value 0x00000104#32)) ∧
    afterGet (afterAccess id (.read 0x04C .four)) State.resp = some (some (.value 0x00010000#32)) ∧
    afterGet (afterAccess id (.read 0x050 .four)) State.resp = some (some (.value 0x00210001#32)) ∧
    afterGet (afterAccess id (.read 0x044 .four)) State.resp = some (some (.value 1#32)) := by decide +kernel

/-- V-ENC-5: clearing DONE keeps ERR and ERRCODE. -/
theorem test_clear_done :
    afterGet (afterAccess (fun s => { s with status := ⟨true, true, false, false, .illegal⟩ })
      (.write 0x008 .four 2#32)) statusWord = some 0x00000104#32 := by decide +kernel

/-- V-ENC-7: a CMD write while busy sets OVR. -/
theorem test_cmd_overrun :
    afterGet (afterAccess (accept 2#32) (.write 0x00C .four 1#32)) (fun t => (t.cmd, statusWord t)) =
    some (2#32, 0x00000011#32) := by decide +kernel

/-- 20_memory.md R70: the bytes c0 a8 01 02 read as 0x0201A8C0. -/
theorem test_read_little_endian :
    afterGet (afterAccess (setMem 4 (bytes [0xc0, 0xa8, 0x01, 0x02])) (.read 0x1004 .four)) State.resp =
    some (some (.value 0x0201A8C0#32)) := by decide +kernel

/-- 20_memory.md R66, R67, R61: bus errors, and an address outside the window. -/
theorem test_bus_errors :
    faultOf (afterAccess id (.read 0x002 .two)) = some (.busError 0x002) ∧
    faultOf (afterAccess id (.write 0x101E .four 0#32)) = some (.busError 0x101E) ∧
    refusalOf (afterAccess id (.read 0x2000 .four)) = some (.outsideWindow 0x2000) := by decide +kernel

/-! ### Witnesses: states and operands that meet the hypotheses of each statement -/

/-- A pending command in the reset state. -/
def pendingState (w : Word) : State := { State.reset with pending := true, cmd := w }

/-- A state with one bus access and what follows it to come. -/
def nextInputs (s : State) (l : List Input) : State := { s with inputs := l }

theorem hasBytes_of_read {m : Memory} {a n : Nat} {bs : List Byte} (h : m.read a n = .ok bs) : HasBytes m a bs :=
  (Memory.read_eq_ok_iff.mp h).2

/-- Two routes stored, a completed lookup in STATUS, a byte of frame memory: a state that meets the invariant. -/
def invState : State :=
  { withRoutes 1 0x0401000A#32 with
    fmem := [(0x000, 0xAB#8), (0xFFF, 0xCD#8)]
    cmd := 2#32
    status := ⟨true, false, true, false, .none⟩
    txLen := 42#16
    txIf := 3#8 }

theorem witness_invariant : Inv invState where
  params := by decide
  iftab := by decide
  fmem := by decide
  routeCap := by decide
  nodeCap := by decide +kernel
  trie := rfl
  discarded := by decide
  held := by decide
  busyClear := by unfold BusyClear; decide
  errCode := by decide
  found := by decide
  txLen := by decide
  txIf := by decide

theorem witness_illegal_word :
    CommandWord.legal (pendingState 0x00000012#32).cmd = false ∧
    (pendingState 0x00000012#32).pending = true ∧ (pendingState 0x00000012#32).resetting = false ∧
    (pendingState 0x00000012#32).inputs = [] ∧ (pendingState 0x00000012#32).hazard = false ∧
    (nextInputs (pendingState 0x00000012#32) [.engine, .wait]).inputs = .engine :: [.wait] := by decide

theorem witness_pending_command :
    (pendingState 0x00000422#32).hazard = false ∧ (pendingState 0x00000422#32).pending = true ∧
    (pendingState 0x00000422#32).resetting = false ∧ (pendingState 0x00000422#32).inputs = [] ∧
    (nextInputs (pendingState 0x00000422#32) [.engine]).inputs = .engine :: [] ∧
    decode (pendingState 0x00000422#32).cmd = .ok (.icmpTimeExceeded 4#8) := by decide

theorem witness_idle :
    State.reset.hazard = false ∧ State.reset.resetting = false ∧ State.reset.pending = false ∧
    State.reset.inputs = [] ∧ (nextInputs State.reset [.engine, .wait]).inputs = .engine :: [.wait] := by decide

/-- An insertion that fits exactly: 26 nodes stand, the route needs 9 more, the capacity is 35. -/
def fitState : State :=
  { invState with params := { instanceE 1 with nodeCap := 35 }, arg0 := 0x0000000B#32, arg1 := 0x000000FF#32 }

theorem witness_insert_fits :
    fitState.routes.length ≠ fitState.params.routeCap ∧
    fitState.nodes.length + need fitState.nodes fitState.arg0 (mlen fitState.arg1 + fitState.params.depthExtra.val) =
      fitState.params.nodeCap := by decide +kernel

theorem witness_insert_fits_inv : Inv fitState where
  params := by decide
  iftab := by decide
  fmem := by decide
  routeCap := by decide
  nodeCap := by decide +kernel
  trie := rfl
  discarded := by decide
  held := by decide
  busyClear := by unfold BusyClear; decide
  errCode := by decide
  found := by decide
  txLen := by decide
  txIf := by decide

/-- The clauses of an insertion that does not fit: the route store full; one node too few. -/
theorem witness_insert_full :
    (let s : State := { fitState with params := { fitState.params with routeCap := 2 } };
      s.routes.length = s.params.routeCap) ∧
    (let s : State := { fitState with params := { fitState.params with nodeCap := 34 } };
      s.routes.length ≠ s.params.routeCap ∧
      s.params.nodeCap < s.nodes.length + need s.nodes s.arg0 (depth s.params.depthExtra s.arg1)) := by decide +kernel

theorem witness_insert_succeeds :
    afterGet (exec .lpmInsert fitState) (fun t => t.status.err) = some false := by decide +kernel

theorem witness_two_stored_routes :
    invState.routes[0]? = some routeA ∧ invState.routes[1]? = some routeB := by decide

/-- Both clauses of a lookup: a hit in `invState`, a miss for an odd first octet. -/
theorem witness_lookup_hit_and_miss :
    afterGet (exec .lpmLookup invState) (fun t => t.status.found) = some true ∧
    afterGet (exec .lpmLookup { invState with arg0 := 0x0000000B#32 }) (fun t => t.status.found) = some false ∧
    invState.params.depthExtra = 1 := by decide +kernel

theorem witness_mask_length_below_32 : mlen 0x7FFFFFFF#32 < 32 ∧ mlen 0x7FFFFFFF#32 = 31 := by decide

/-- Clauses of the tree's shape: a node after the root, a link, a stored route. -/
theorem witness_tree_shape :
    0 < 1 ∧ 1 < invState.nodes.length ∧ childOf invState.nodes 0 false = some 1 ∧
    (nodeAt invState.nodes 9).route = some 0 := by decide +kernel

/-- A step of each kind that grows, keeps and resets the stores. -/
theorem witness_store_steps :
    afterGet (step { fitState with pending := true, cmd := 1#32, status := Status.zero }) (fun t => t.routes.length) =
      some 3 ∧
    afterGet (step invState) (fun t => t.routes.length) = some 2 ∧
    afterGet (step (nextInputs invState [.rstAssert])) (fun t => (t.resetting, t.routes.length, t.nodes.length)) =
      some (true, 0, 1) := by decide +kernel

theorem witness_default_node_capacity : invState.params.nodeCap = 1 + 33 * invState.params.routeCap := by decide

/-- CSUM's range at its upper bound, and the bytes it sums. -/
theorem witness_csum :
    let s : State := { invState with arg0 := 0xFFF#32, arg1 := 1#32 }
    s.arg0.toNat + s.arg1.toNat ≤ 0x1000 ∧ [0xCD#8].length = s.arg1.toNat ∧
      HasBytes s.fmem s.arg0.toNat [0xCD#8] :=
  ⟨by decide, by decide, hasBytes_of_read (n := 1) (by decide)⟩

theorem witness_swap :
    (bytes [1, 2]).length % 2 = 0 ∧ ([] : List Byte).length % 2 = 0 ∧ (bytes [3, 4, 5, 6]).length = 4 ∧
      (bytes [7, 8, 9, 10]).length = 4 := by decide

/-- CSUM_FILL over a range of four bytes whose last two are the field, which need not be written. -/
theorem witness_csum_fill :
    let s := setup (bytes [0x12, 0x34]) 0#16 0#32 4#32 2#32
    s.arg0.toNat + s.arg1.toNat ≤ 0x1000 ∧ s.arg2.toNat + 2 ≤ 0x1000 ∧
      (bytes [0x12, 0x34, 0, 0]).length = s.arg1.toNat ∧
      (∀ j b, (bytes [0x12, 0x34, 0, 0])[j]? = some b →
        if s.arg0.toNat + j = s.arg2.toNat ∨ s.arg0.toNat + j = s.arg2.toNat + 1 then b = 0#8
        else s.fmem.readByte (s.arg0.toNat + j) = some b) := by
  refine ⟨by decide, by decide, by decide, fun j b h => ?_⟩
  match j with
  | 0 | 1 | 2 | 3 => revert h; revert b; decide
  | j + 4 => cases h

/-- A CSUM_FILL whose field ends its range, at an even distance. -/
theorem witness_fill_then_sum :
    let s := setup (bytes [0x12, 0x34]) 0#16 0#32 4#32 2#32
    afterGet (exec .csumFill s) (fun t => t.status.err) = some false ∧ s.arg0.toNat ≤ s.arg2.toNat ∧
      s.arg2.toNat + 2 ≤ s.arg0.toNat + s.arg1.toNat ∧ (s.arg2.toNat - s.arg0.toNat) % 2 = 0 := by decide +kernel

theorem witness_one_byte_corruption :
    let s := setup (bytes [0xFF, 0xFF]) 0#16 0#32 2#32 0#32
    afterGet (exec .csum s) (fun t => (t.status.err, t.res0)) = some (false, 0#32) ∧
      s.arg0.toNat ≤ 1 ∧ 1 < s.arg0.toNat + s.arg1.toNat ∧ s.fmem.readByte 1 ≠ some 0xFE#8 ∧
      afterGet (exec .csum { s with fmem := s.fmem.writeByte 1 0xFE#8 }) (fun t => (t.status.err, t.res0)) =
        some (false, 1#32) := by decide +kernel

/-- Each clause of the checksum ranges at its boundary. -/
theorem witness_checksum_ranges :
    0x1000 < (setup [] 0#16 0xFFF#32 2#32 0#32).arg0.toNat + (setup [] 0#16 0xFFF#32 2#32 0#32).arg1.toNat ∧
    0x1000 < (setup [] 0#16 0#32 0#32 0xFFF#32).arg2.toNat + 2 ∧
    (setup [] 0#16 0x1000#32 0#32 0xFFE#32).arg1 = 0#32 ∧ (setup [] 0#16 0x1000#32 0#32 0xFFE#32).arg0.toNat ≤ 0x1000 ∧
    (setup [] 0#16 0x1000#32 0#32 0xFFE#32).arg2.toNat + 2 ≤ 0x1000 := by decide

/-- An echo request of total length 28 in a 42-byte frame: every bound met with equality. -/
def leastEcho : State := setup (bytes (List.replicate 17 0) ++ [0x1C#8] ++ bytes (List.replicate 24 7)) 42#16 0#32 0#32 0#32

theorem witness_echo_reply :
    42 ≤ leastEcho.rxLen.toNat ∧ leastEcho.rxLen.toNat ≤ 2048 ∧ HasBytes leastEcho.fmem 16 [0x00#8, 0x1C#8] ∧
      28 ≤ (0x00#8).toNat * 256 + (0x1C#8).toNat ∧ 14 + ((0x00#8).toNat * 256 + (0x1C#8).toNat) ≤ leastEcho.rxLen.toNat ∧
      HasBytes leastEcho.fmem 26 (bytes [7, 7, 7, 7]) ∧ HasBytes leastEcho.fmem 30 (bytes [7, 7, 7, 7]) ∧
      (bytes [7, 7, 7, 7]).length + 24 = (0x00#8).toNat * 256 + (0x1C#8).toNat ∧
      HasBytes leastEcho.fmem 38 (bytes [7, 7, 7, 7]) :=
  ⟨by decide, by decide, hasBytes_of_read (n := 2) (by decide +kernel), by decide, by decide,
    hasBytes_of_read (n := 4) (by decide +kernel), hasBytes_of_read (n := 4) (by decide +kernel), by decide,
    hasBytes_of_read (n := 4) (by decide +kernel)⟩

/-- Each clause of the echo reply's errors at its boundary: 2049, 41, T = 27, and T one more than the frame holds. -/
theorem witness_echo_errors :
    2048 < (setup [] 2049#16 0#32 0#32 0#32).rxLen.toNat ∧ (setup [] 41#16 0#32 0#32 0#32).rxLen.toNat < 42 ∧
    (42 ≤ leastEcho.rxLen.toNat ∧ leastEcho.rxLen.toNat ≤ 2048 ∧
      (setup (leastEcho.fmem.map Prod.snd |>.set 17 0x1B#8) 42#16 0#32 0#32 0#32).fmem.read 16 2 = .ok [0x00#8, 0x1B#8] ∧
      (0x00#8).toNat * 256 + (0x1B#8).toNat < 28) ∧
    ((setup (leastEcho.fmem.map Prod.snd |>.set 17 0x1D#8) 42#16 0#32 0#32 0#32).fmem.read 16 2 = .ok [0x00#8, 0x1D#8] ∧
      leastEcho.rxLen.toNat < 14 + ((0x00#8).toNat * 256 + (0x1D#8).toNat)) := by decide +kernel

/-- An echo reply that completes, its IP header readable before and after. -/
theorem witness_echo_header_sum :
    let s := setup frame3 50#16 0#32 0#32 0#32
    afterGet (exec .icmpEchoReply s) (fun t => (t.fmem.read 14 20).toOption.map List.length) = some (some 20) ∧
      (s.fmem.read 14 20).toOption.map List.length = some 20 := by decide +kernel

/-- An ICMP error with the least RX_LEN and the last interface. -/
theorem witness_icmp_error :
    let s := setup (frame1.take 34) 34#16 0#32 0#32 0#32
    (3#8 : Byte).toNat < s.params.nif ∧ s.iftab[(3#8 : Byte).toNat]? = some ⟨0x010010AC#32, 0xEFBEADDE#32, 0x0300#16⟩ ∧
      34 ≤ s.rxLen.toNat ∧ s.rxLen.toNat ≤ 2048 ∧ HasBytes s.fmem 6 (bytes [0x02, 0, 0, 0, 0, 0xaa]) ∧
      HasBytes s.fmem 14 (bytes [0x45, 0, 0, 0x24, 0x1c, 0x46, 0x40, 0]) ∧
      HasBytes s.fmem 26 (bytes [0xc0, 0xa8, 0x01, 0x02]) :=
  ⟨by decide, by decide, by decide, by decide, hasBytes_of_read (n := 6) (by decide +kernel),
    hasBytes_of_read (n := 8) (by decide +kernel), hasBytes_of_read (n := 4) (by decide +kernel)⟩

theorem witness_arp_request :
    let s := setup [] 0#16 0#32 0#32 0#32
    (0#8 : Byte).toNat < s.params.nif ∧ s.iftab[(0#8 : Byte).toNat]? = some ⟨0x0100A8C0#32, 0xEFBEADDE#32, 0#16⟩ := by decide

theorem witness_arp_reply :
    let s := setup frameRq 42#16 0#32 0#32 0#32
    (1#8 : Byte).toNat < s.params.nif ∧ s.iftab[(1#8 : Byte).toNat]? = some ⟨0x0101A8C0#32, 0xEFBEADDE#32, 0x0100#16⟩ ∧
      42 ≤ s.rxLen.toNat ∧ s.rxLen.toNat ≤ 2048 ∧ HasBytes s.fmem 6 (bytes [0x02, 0, 0, 0, 0, 0xaa]) ∧
      HasBytes s.fmem 22 (bytes [0x02, 0, 0, 0, 0, 0xaa]) ∧ HasBytes s.fmem 28 (bytes [0xc0, 0xa8, 0x01, 0x02]) :=
  ⟨by decide, by decide, by decide, by decide, hasBytes_of_read (n := 6) (by decide +kernel),
    hasBytes_of_read (n := 6) (by decide +kernel), hasBytes_of_read (n := 4) (by decide +kernel)⟩

/-- Each clause of the TXBUF builders' errors at its boundary. -/
theorem witness_tx_errors :
    Params.specDefault.nif ≤ (4#8 : Byte).toNat ∧ (3#8 : Byte).toNat < Params.specDefault.nif ∧
    2048 < (setup [] 2049#16 0#32 0#32 0#32).rxLen.toNat ∧ (setup [] 33#16 0#32 0#32 0#32).rxLen.toNat < 34 ∧
    (setup [] 41#16 0#32 0#32 0#32).rxLen.toNat < 42 := by decide

/-- Builders that complete without error, and a command that ends in one. -/
theorem witness_built_frames :
    afterGet (exec (.icmpDestUnreach 3#8) (setup (frame1.take 34) 34#16 0#32 0#32 0#32)) (fun t => t.status.err) = some false ∧
    afterGet (exec .icmpEchoReply (setup frame3 50#16 0#32 0#32 0#32)) (fun t => t.status.err) = some false ∧
    afterGet (exec .csum (setup frame3 50#16 0x00E#32 20#32 0#32)) (fun v => (v.status.err, v.res0)) = some (false, 0#32) ∧
    afterGet (exec (.arpReply 0#8) (setup frameRq 42#16 0#32 0#32 0#32)) (fun t => t.status.err) = some false ∧
    afterGet (exec (.arpRequest 4#8) (setup [] 0#16 0#32 0#32 0#32)) (fun t => t.status.err) = some true := by decide +kernel

theorem witness_valueless_byte :
    let s : State := { State.reset with arg0 := 0xFFF#32, arg1 := 1#32 }
    s.arg0.toNat + s.arg1.toNat ≤ 0x1000 ∧ 0 < s.arg1.toNat ∧ s.fmem.readByte (s.arg0.toNat + 0) = none := by decide

theorem witness_cmd_write_idle :
    let s := nextInputs State.reset [.access (.write (State.reset.params.base + 0x00C) .four 1#32), .wait]
    s.hazard = false ∧ s.pending = false ∧ s.resetting = false ∧
      s.inputs = .access (.write (s.params.base + 0x00C) .four 1#32) :: [.wait] := by decide

/-- Both ways of being busy. -/
theorem witness_busy :
    (pendingState 2#32).hazard = false ∧ (pendingState 2#32).pending = true ∧ (pendingState 2#32).busy = true ∧
    (startReset State.reset).hazard = false ∧ (startReset State.reset).resetting = true ∧
    (startReset State.reset).busy = true := by decide

/-- A CMD write while busy, and a STATUS write. -/
theorem witness_busy_writes :
    let s := nextInputs (pendingState 2#32) [.access (.write (State.reset.params.base + 0x00C) .four 1#32)]
    let u := nextInputs (pendingState 2#32) [.access (.write (State.reset.params.base + 0x008) .four 2#32), .engine]
    s.inputs = .access (.write (s.params.base + 0x00C) .four 1#32) :: [] ∧ s.hazard = false ∧ s.pending = true ∧
    u.inputs = .access (.write (u.params.base + 0x008) .four 2#32) :: .engine :: [] ∧ u.hazard = false ∧
      u.resetting = false ∧ u.pending = true ∧
      afterGet (Host.Core.run core 2 u) (fun t : State => t.status.done) = some true := by decide +kernel

theorem witness_reset_starts :
    (nextInputs invState [.rstAssert]).hazard = false ∧ (nextInputs invState [.rstAssert]).inputs = .rstAssert :: [] ∧
    (3#32 : Word).getLsbD 0 = true ∧
    (nextInputs invState [.access (.write (invState.params.base + 0x004) .four 3#32)]).inputs =
      .access (.write (invState.params.base + 0x004) .four 3#32) :: [] := by decide

theorem witness_reset_ends :
    let s := startReset invState
    s.hazard = false ∧ s.inputs = [] ∧ s.resetting = true ∧ s.rst = false ∧
      (nextInputs s [.engine, .wait]).inputs = .engine :: [.wait] ∧
      (rstAsserted invState).resetting = true ∧ (rstAsserted invState).rst = true := by decide

theorem witness_empty_trie :
    State.reset.routes = [] ∧ State.reset.nodes = [⟨none, none, none⟩] := by decide

/-- Frame memory accesses of each width at the last address that fits. -/
theorem witness_frame_memory_access :
    (0xFFF < 0x1000 ∧ 0xFFF % Width.one.bytes = 0) ∧ (0xFFE < 0x1000 ∧ 0xFFE % Width.two.bytes = 0) ∧
    (0xFFC < 0x1000 ∧ 0xFFC % Width.four.bytes = 0) ∧
    let acc := fun a : Nat => [Input.access (.write (State.reset.params.base + 0x1000 + a) .two 0x1234#32),
      .access (.read (State.reset.params.base + 0x1000 + a) .two)]
    (nextInputs State.reset (acc 0xFFE)).inputs = acc 0xFFE ∧ (nextInputs State.reset (acc 0xFFE)).hazard = false ∧
      (nextInputs State.reset (acc 0xFFE)).pending = false ∧ (nextInputs State.reset (acc 0xFFE)).resetting = false := by
  decide

/-- Each clause of the access rules: width and alignment in the register area, alignment in frame memory, legal ones. -/
theorem witness_access_clauses :
    (0xFFC < 0x1000 ∧ Width.two ≠ .four) ∧ (0xFFE < 0x1000 ∧ 0xFFE % 4 ≠ 0) ∧
    (0x1000 ≤ 0x1FFF ∧ 0x1FFF < 0x2000 ∧ 0x1FFF % Width.two.bytes ≠ 0) ∧ (0xFFC < 0x1000 ∧ 0xFFC % 4 = 0) ∧
    (0x1000 ≤ 0x1FFC ∧ 0x1FFC % Width.four.bytes = 0) ∧
    let acc := Access.read (State.reset.params.base + 0xFFE) .four
    acc.addr = State.reset.params.base + 0xFFE ∧
      (nextInputs State.reset [.access acc]).inputs = .access acc :: [] ∧
      (nextInputs State.reset [.access acc]).hazard = false := by decide

/-- Each clause of the reserved offsets at its boundary. -/
theorem witness_reserved_offsets :
    (0x03C % 4 = 0) ∧ (0x054 ≤ 0x054 ∧ 0x0FC < 0x100 ∧ 0x0FC % 4 = 0) ∧ (0x200 ≤ 0x200 ∧ 0xFFC < 0x1000 ∧ 0xFFC % 4 = 0) ∧
    (0x100 ≤ 0x140 ∧ 0x140 < 0x200 ∧ State.reset.params.nif ≤ (0x140 - 0x100) / 16 ∧ 0x140 % 4 = 0) ∧
    (0x100 ≤ 0x10C ∧ 0x10C < 0x200 ∧ 0x10C % 16 = 12 ∧ 0x10C % 4 = 0) ∧
    let r := Input.access (.read (State.reset.params.base + 0x03C) .four)
    let w := Input.access (.write (State.reset.params.base + 0x03C) .four 1#32)
    (nextInputs State.reset [r]).inputs = r :: [] ∧ (nextInputs State.reset [w]).inputs = w :: [] ∧
      (nextInputs State.reset [r]).hazard = false := by decide

theorem witness_constant_registers :
    let r := Input.access (.read (State.reset.params.base + 0x048) .four)
    let w := Input.access (.write (State.reset.params.base + 0x048) .four 1#32)
    State.reset.params.legal ∧ (nextInputs State.reset [r]).inputs = r :: [] ∧
      (nextInputs State.reset [w]).inputs = w :: [] ∧ (nextInputs State.reset [w]).hazard = false := by decide

/-- Each clause of the hazard writes, and a run that has the mark. -/
theorem witness_hazard_write :
    let w := Input.access (.write (State.reset.params.base + 0x138) .four 1#32)
    (pendingState 2#32).busy = true ∧ (pendingState 2#32).hazard = false ∧
      (nextInputs (pendingState 2#32) [w]).inputs = w :: [] ∧
      0x030 ∈ [0x010, 0x014, 0x018, 0x01C, 0x030] ∧ (3 < (pendingState 2#32).params.nif ∧ 3 < 16) ∧
      0x138 ∈ [0x100 + 16 * 3, 0x104 + 16 * 3, 0x108 + 16 * 3] ∧
      (0x1000 ≤ 0x1FFF ∧ 0x1FFF < 0x2000 ∧ 0x1FFF % Width.one.bytes = 0) ∧
      { State.reset with hazard := true }.hazard = true := by decide

/-- A read that completes while busy. -/
theorem witness_read :
    let r := Input.access (.read 0x008 .four)
    (nextInputs (pendingState 2#32) [r]).inputs = r :: [] ∧
      afterGet (step (nextInputs (pendingState 2#32) [r])) State.resp = some (some (.value 1#32)) := by decide +kernel

theorem witness_control_reads :
    let r := fun off : Nat => Input.access (.read (State.reset.params.base + off) .four)
    (nextInputs (pendingState 2#32) [r 0x004]).inputs = r 0x004 :: [] ∧
      (nextInputs (pendingState 2#32) [r 0x008]).inputs = r 0x008 :: [] ∧
      (nextInputs (pendingState 2#32) [r 0x00C]).inputs = r 0x00C :: [] ∧ (pendingState 2#32).hazard = false ∧
      (0xFFFFFFFE#32).getLsbD 0 = false ∧
      let w := Input.access (.write ((pendingState 2#32).params.base + 0x004) .four 0xFFFFFFFE#32)
      (nextInputs (pendingState 2#32) [w]).inputs = w :: [] := by decide

/-- A read and a write of NODE_COUNT, the last offset of the list; the state meets the invariant (`witness_invariant`
gives each field, none of which looks at the inputs). -/
theorem witness_read_only_registers :
    let r := Input.access (.read (invState.params.base + 0x044) .four)
    let w := Input.access (.write (invState.params.base + 0x044) .four 1#32)
    Inv (nextInputs invState [r]) ∧ (nextInputs invState [r]).inputs = r :: [] ∧ invState.hazard = false ∧
      invState.pending = false ∧ invState.resetting = false ∧ (nextInputs invState [w]).inputs = w :: [] ∧
      0x044 ∈ [0x020, 0x024, 0x028, 0x02C, 0x034, 0x038, 0x040, 0x044] :=
  ⟨⟨witness_invariant.params, witness_invariant.iftab, witness_invariant.fmem, witness_invariant.routeCap,
    witness_invariant.nodeCap, witness_invariant.trie, witness_invariant.discarded, witness_invariant.held,
    witness_invariant.busyClear, witness_invariant.errCode, witness_invariant.found, witness_invariant.txLen,
    witness_invariant.txIf⟩, by decide⟩

theorem witness_operand_registers :
    let l := [Input.access (.write (invState.params.base + 0x138) .four 0x12345678#32),
      .access (.read (invState.params.base + 0x138) .four)]
    (nextInputs invState l).inputs = l ∧ (nextInputs invState l).hazard = false ∧ invState.pending = false ∧
      invState.resetting = false ∧ invState.iftab.length = invState.params.nif ∧
      0x030 ∈ [0x010, 0x014, 0x018, 0x01C, 0x030] ∧ 3 < invState.params.nif ∧ 3 < 16 ∧
      0x138 ∈ [0x100 + 16 * 3, 0x104 + 16 * 3, 0x108 + 16 * 3] := by decide

theorem witness_wait :
    (nextInputs (pendingState 2#32) [.wait]).hazard = false ∧
    (nextInputs (pendingState 2#32) [.wait]).inputs = .wait :: [] := by decide

/-- A step from a state that meets the invariant. -/
theorem witness_step : afterGet (step invState) (fun t => t.params == invState.params) = some true := by decide +kernel

end Sys2Proof.Tests
end

section
/-! SUPPORT. The walks of an insertion: how many nodes one creates, where `follow` leads while the store grows, and
what storing a route leaves as it was (spec/40_lpm_trie.md R124, R125). -/

namespace Sys2Proof.Machine

open Sys2Proof.Safety

/-! ### Mask length and depth -/

theorem mlenFrom_le (m : Word) (l fuel : Nat) : mlenFrom m l fuel ≤ l + fuel := by
  induction fuel generalizing l with
  | zero => exact le_rfl
  | succ fuel ih =>
    rw [mlenFrom]
    split
    · have := ih (l + 1)
      omega
    · omega

theorem mlen_le (m : Word) : mlen m ≤ 32 := mlenFrom_le m 0 32

theorem depth_le (extra : Fin 2) (m : Word) : depth extra m ≤ 32 + extra.val :=
  Nat.add_le_add_right (mlen_le m) _

/-! ### How many nodes an insertion creates -/

/-- The node `addChild` makes has no children. -/
theorem childOf_addChild_new (nodes : List Node) (n : Nat) (b c : Bool) :
    childOf (addChild nodes n b) nodes.length c = none := by
  rw [childOf_addChild, if_neg (by omega), childOf_of_length_le c le_rfl]

/-- From a node without children every position walked is created. -/
theorem insertWalk_created_of_leaf (p : Word) (i fuel : Nat) {nodes : List Node} {n : Nat} (created : Nat)
    (h : ∀ b, childOf nodes n b = none) : (insertWalk p i fuel nodes n created).created = created + fuel := by
  induction fuel generalizing i nodes n created with
  | zero => rfl
  | succ fuel ih =>
    rw [insertWalk_succ_of_none (h _), ih _ _ fun c => childOf_addChild_new nodes n _ c]
    omega

/-- A walk creates the positions whose nodes are not present. -/
theorem insertWalk_created (p : Word) (i fuel : Nat) (nodes : List Node) (n created : Nat) :
    (insertWalk p i fuel nodes n created).created = created + (fuel - presentFrom nodes p i fuel n) := by
  induction fuel generalizing i n created with
  | zero => rfl
  | succ fuel ih =>
    cases h : childOf nodes n (kbit p i) with
    | some c =>
      rw [insertWalk_succ_of_some h, ih]
      simp only [presentFrom, h]
      omega
    | none =>
      rw [insertWalk_succ_of_none h, insertWalk_created_of_leaf _ _ _ _ fun c => childOf_addChild_new nodes n _ c]
      simp only [presentFrom, h]
      omega

/-- The walk of an insertion creates what R125 says it needs. -/
theorem insertPath_created (nodes : List Node) (p : Word) (d : Nat) :
    (insertPath nodes p d).created = need nodes p d := by
  rw [insertPath, insertWalk_created, Nat.zero_add, need]

/-! ### The store after a route is stored -/

@[simp] theorem storeRoute_length (nodes : List Node) (p : Word) (d r : Nat) :
    (storeRoute nodes p d r).length = nodes.length + need nodes p d := by
  have := insertWalk_length p 0 d nodes 0 0
  rw [storeRoute, setRoute_length, ← insertPath_created]
  exact this

/-- Storing a route keeps every link that stands. -/
theorem childOf_storeRoute {nodes : List Node} {m c : Nat} {b : Bool} (p : Word) (d r : Nat)
    (h : childOf nodes m b = some c) : childOf (storeRoute nodes p d r) m b = some c := by
  rw [storeRoute, childOf_setRoute]
  exact childOf_insertWalk h

/-- The only route index that storing a route brings into the node store is its own. -/
theorem nodeAt_route_storeRoute {nodes : List Node} {p : Word} {d r m q : Nat}
    (h : (nodeAt (storeRoute nodes p d r) m).route = some q) : q = r ∨ (nodeAt nodes m).route = some q := by
  rw [storeRoute, nodeAt_route_setRoute] at h
  split at h
  · exact .inl (Option.some.inj h).symm
  · rw [insertPath, nodeAt_route_insertWalk] at h
    exact .inr h

/-! ### Following a path -/

theorem follow_succ_of_some {nodes : List Node} {p : Word} {i fuel n c : Nat}
    (h : childOf nodes n (kbit p i) = some c) :
    follow nodes p i (fuel + 1) n = follow nodes p (i + 1) fuel c := by rw [follow, h]

theorem follow_succ_of_none {nodes : List Node} {p : Word} {i fuel n : Nat} (h : childOf nodes n (kbit p i) = none) :
    follow nodes p i (fuel + 1) n = none := by rw [follow, h]

/-- One more position at the end of a path that was followed. -/
theorem follow_concat {nodes : List Node} {p : Word} {i fuel n m : Nat} (h : follow nodes p i fuel n = some m) :
    follow nodes p i (fuel + 1) n = childOf nodes m (kbit p (i + fuel)) := by
  induction fuel generalizing i n with
  | zero =>
    obtain rfl : n = m := Option.some.inj h
    cases hc : childOf nodes n (kbit p i) with
    | none => rw [follow_succ_of_none hc]
    | some c => rw [follow_succ_of_some hc, follow]
  | succ fuel ih =>
    cases hc : childOf nodes n (kbit p i) with
    | none =>
      rw [follow_succ_of_none hc] at h
      cases h
    | some c =>
      rw [follow_succ_of_some hc] at h ⊢
      rw [ih h, Nat.add_right_comm, ← Nat.add_assoc]

/-- A path leads to the same node in every store that has the same links and more. -/
theorem follow_mono {nodes nodes' : List Node} {p : Word} {i fuel n m : Nat}
    (hmono : ∀ k b c, childOf nodes k b = some c → childOf nodes' k b = some c)
    (h : follow nodes p i fuel n = some m) : follow nodes' p i fuel n = some m := by
  induction fuel generalizing i n with
  | zero => exact h
  | succ fuel ih =>
    cases hc : childOf nodes n (kbit p i) with
    | none =>
      rw [follow_succ_of_none hc] at h
      cases h
    | some c =>
      rw [follow_succ_of_some hc] at h
      rw [follow_succ_of_some (hmono _ _ _ hc)]
      exact ih h

end Sys2Proof.Machine
end

section
/-! SUPPORT. The node store as a tree (spec/10_state.md R45, R47): the form, and that every insertion keeps it. -/

namespace Sys2Proof.Safety

open Sys2Proof.Machine

/-- The nodes form a binary tree of depth at most `d` rooted at node 0 (10_state.md R45, R47). -/
structure IsTree (d : Nat) (nodes : List Node) : Prop where
  /-- There is a root. -/
  root : 0 < nodes.length
  /-- No link leads to the root. -/
  noLinkToRoot : ∀ n b, childOf nodes n b ≠ some 0
  /-- Every other node is the child of exactly one node under one bit. -/
  oneParent : ∀ k, 0 < k → k < nodes.length → ∃! link : Nat × Bool, childOf nodes link.1 link.2 = some k
  /-- Links join nodes of the store. -/
  inside : ∀ n b c, childOf nodes n b = some c → n < nodes.length ∧ c < nodes.length
  /-- A path of at most `d` positions leads from the root to every node. -/
  reached : ∀ k < nodes.length, ∃ p i, i ≤ d ∧ follow nodes p 0 i 0 = some k

/-- The empty trie's root alone is a tree. -/
theorem isTree_root (d : Nat) : IsTree d [Node.empty] := by
  have hnone (n : Nat) (b : Bool) : childOf [Node.empty] n b = none := by
    cases n with
    | zero => exact Node.child_empty b
    | succ n => exact childOf_of_length_le b (by simp)
  refine ⟨Nat.one_pos, fun n b => by simp [hnone], fun k h0 hk => ?_, fun n b c h => by simp [hnone] at h,
    fun k hk => ⟨0#32, 0, Nat.zero_le d, ?_⟩⟩
  · rw [List.length_singleton] at hk
    omega
  · rw [List.length_singleton, Nat.lt_one_iff] at hk
    rw [hk, follow]

/-- Only the links and the number of nodes matter. -/
theorem IsTree.of_childOf_eq {d : Nat} {nodes nodes' : List Node} (h : IsTree d nodes)
    (hlen : nodes'.length = nodes.length) (hc : ∀ n b, childOf nodes' n b = childOf nodes n b) : IsTree d nodes' := by
  refine ⟨hlen ▸ h.root, fun n b => hc n b ▸ h.noLinkToRoot n b, fun k h0 hk => ?_, fun n b c hn => ?_, fun k hk => ?_⟩
  · simpa only [hc] using h.oneParent k h0 (hlen ▸ hk)
  · rw [hlen]
    exact h.inside n b c (hc n b ▸ hn)
  · obtain ⟨p, i, hi, hf⟩ := h.reached k (hlen ▸ hk)
    exact ⟨p, i, hi, follow_mono (fun n b c hn => (hc n b).trans hn) hf⟩

/-- A path from the root of a tree stays inside the store. -/
theorem IsTree.follow_lt {d : Nat} {nodes : List Node} (h : IsTree d nodes) {p : Word} {i fuel n m : Nat}
    (hn : n < nodes.length) (hf : follow nodes p i fuel n = some m) : m < nodes.length := by
  induction fuel generalizing i n with
  | zero => exact Option.some.inj hf ▸ hn
  | succ fuel ih =>
    cases hc : childOf nodes n (kbit p i) with
    | none =>
      rw [follow_succ_of_none hc] at hf
      cases hf
    | some c =>
      rw [follow_succ_of_some hc] at hf
      exact ih (h.inside _ _ _ hc).2 hf

/-- `addChild` at an absent link keeps every link that stands. -/
theorem childOf_addChild_of_some {nodes : List Node} {n m c : Nat} {b b' : Bool} (hnone : childOf nodes n b = none)
    (h : childOf nodes m b' = some c) : childOf (addChild nodes n b) m b' = some c := by
  rw [childOf_addChild, if_neg, h]
  rintro ⟨rfl, rfl, -⟩
  rw [hnone] at h
  cases h

/-- The links after `addChild` are the one it makes and those that stood. -/
theorem childOf_addChild_eq_some {nodes : List Node} {n m c : Nat} {b b' : Bool}
    (h : childOf (addChild nodes n b) m b' = some c) :
    (n = m ∧ b = b' ∧ n < nodes.length ∧ c = nodes.length) ∨ childOf nodes m b' = some c := by
  rw [childOf_addChild] at h
  split at h
  · next hl => exact .inl ⟨hl.1, hl.2.1, hl.2.2, (Option.some.inj h).symm⟩
  · exact .inr h

/-- A node created at the end of a path of fewer than `d` positions keeps the tree. -/
theorem IsTree.addChild {d : Nat} {nodes : List Node} (h : IsTree d nodes) {p : Word} {i n : Nat} (hi : i < d)
    (hf : follow nodes p 0 i 0 = some n) (hnone : childOf nodes n (kbit p i) = none) :
    IsTree d (addChild nodes n (kbit p i)) := by
  have hn : n < nodes.length := h.follow_lt h.root hf
  have hnew : childOf (Machine.addChild nodes n (kbit p i)) n (kbit p i) = some nodes.length := by
    rw [childOf_addChild, if_pos ⟨rfl, rfl, hn⟩]
  have hmono (m : Nat) (b : Bool) (c : Nat) (hc : childOf nodes m b = some c) :
      childOf (Machine.addChild nodes n (kbit p i)) m b = some c := childOf_addChild_of_some hnone hc
  refine ⟨by simp, fun m b hm => ?_, fun k h0 hk => ?_, fun m b c hm => ?_, fun k hk => ?_⟩
  · obtain ⟨-, -, -, h0⟩ | hm := childOf_addChild_eq_some hm
    · exact absurd h0.symm (Nat.ne_of_gt h.root)
    · exact h.noLinkToRoot m b hm
  · rw [addChild_length] at hk
    obtain rfl | hk := Nat.eq_or_lt_of_le (Nat.le_of_lt_succ hk)
    · refine ⟨(n, kbit p i), hnew, fun link hl => ?_⟩
      obtain ⟨e1, e2, -, -⟩ | hl := childOf_addChild_eq_some hl
      · exact Prod.ext e1.symm e2.symm
      · exact absurd (h.inside _ _ _ hl).2 (Nat.lt_irrefl _)
    · obtain ⟨link, hl, huniq⟩ := h.oneParent k h0 hk
      refine ⟨link, hmono _ _ _ hl, fun link' hl' => ?_⟩
      obtain ⟨-, -, -, rfl⟩ | hl' := childOf_addChild_eq_some hl'
      · exact absurd hk (Nat.lt_irrefl _)
      · exact huniq _ hl'
  · rw [addChild_length]
    obtain ⟨rfl, -, -, rfl⟩ | hm := childOf_addChild_eq_some hm
    · omega
    · obtain ⟨h1, h2⟩ := h.inside m b c hm
      omega
  · rw [addChild_length] at hk
    obtain rfl | hk := Nat.eq_or_lt_of_le (Nat.le_of_lt_succ hk)
    · refine ⟨p, i + 1, hi, ?_⟩
      rw [follow_concat (follow_mono hmono hf), Nat.zero_add, hnew]
    · obtain ⟨q, j, hj, hq⟩ := h.reached k hk
      exact ⟨q, j, hj, follow_mono hmono hq⟩

/-- An insertion's walk of at most `d` positions keeps the tree. -/
theorem IsTree.insertWalk {d : Nat} {nodes : List Node} (h : IsTree d nodes) {p : Word} {i fuel n : Nat} (created : Nat)
    (hd : i + fuel ≤ d) (hf : follow nodes p 0 i 0 = some n) :
    IsTree d (insertWalk p i fuel nodes n created).nodes := by
  induction fuel generalizing i nodes n created with
  | zero => exact h
  | succ fuel ih =>
    have hnext {nodes' : List Node} {c : Nat} (hf' : follow nodes' p 0 i 0 = some n)
        (hc : childOf nodes' n (kbit p i) = some c) : follow nodes' p 0 (i + 1) 0 = some c := by
      rw [follow_concat hf', Nat.zero_add, hc]
    cases hc : childOf nodes n (kbit p i) with
    | some c =>
      rw [insertWalk_succ_of_some hc]
      exact ih h _ (by omega) (hnext hf hc)
    | none =>
      rw [insertWalk_succ_of_none hc]
      refine ih (h.addChild (by omega) hf hc) _ (by omega) (hnext (follow_mono ?_ hf) ?_)
      · exact fun m b c hm => childOf_addChild_of_some hc hm
      · rw [childOf_addChild, if_pos ⟨rfl, rfl, h.follow_lt h.root hf⟩]

/-- Storing a route at a depth of at most `d` keeps the tree. -/
theorem IsTree.storeRoute {d : Nat} {nodes : List Node} (h : IsTree d nodes) {k : Nat} (hk : k ≤ d) (p : Word)
    (r : Nat) : IsTree d (storeRoute nodes p k r) :=
  (h.insertWalk 0 (by omega) rfl).of_childOf_eq (setRoute_length _ _ _) fun n b => childOf_setRoute _ _ _ n b

/-- What insertions build is a tree of depth at most `32 + P_DEPTH_EXTRA`. -/
theorem isTree_build (extra : Fin 2) (routes : List RouteEntry) : IsTree (32 + extra.val) (build extra routes) := by
  induction routes using List.reverseRecOn with
  | nil => exact isTree_root _
  | append_singleton routes e ih =>
    rw [build_concat]
    exact ih.storeRoute (depth_le extra e.mask) _ _

/-- Every route index in a node that insertions built is the index of a route. -/
theorem nodeAt_route_build_lt {extra : Fin 2} {routes : List RouteEntry} {n r : Nat}
    (h : (nodeAt (build extra routes) n).route = some r) : r < routes.length := by
  induction routes using List.reverseRecOn with
  | nil =>
    cases n with
    | zero => cases h
    | succ n =>
      rw [build_nil, nodeAt_of_length_le (by simp)] at h
      cases h
  | append_singleton routes e ih =>
    rw [build_concat] at h
    rw [List.length_append, List.length_singleton]
    obtain rfl | h := nodeAt_route_storeRoute h
    · exact Nat.lt_succ_self _
    · exact Nat.lt_succ_of_lt (ih h)

end Sys2Proof.Safety
end

section
/-! SUPPORT. Decoding and encoding undo each other (spec/30_encoding.md R90, R92, R95). -/

namespace Sys2Proof.Laws

/-- A word whose reserved bits are 0 is the word of its two fields. -/
theorem commandWord_fields {w : Word} (h : rsvdField w = 0#16) : commandWord (ifidField w) (opcodeField w) = w := by
  apply BitVec.eq_of_getLsbD_eq
  intro i hi
  have hr : 16 ≤ i → w.getLsbD i = false := fun h16 => by
    have := congrArg (·.getLsbD (i - 16)) h
    simpa [rsvdField, Nat.add_sub_cancel' h16, show i - 16 < 16 by omega] using this
  by_cases h8 : i < 8
  · simp [commandWord, ifidField, opcodeField, h8, hi]
  · by_cases h16 : i < 16
    · have e : 8 + (i - 8) = i := by omega
      simp [commandWord, ifidField, opcodeField, h8, hi, e, show i - 8 < 8 by omega]
    · rw [hr (by omega)]
      simp [commandWord, ifidField, opcodeField, h8, hi, show ¬ i - 8 < 8 by omega]

theorem decode_commandWord (k op : Byte) : decode (commandWord k op) = decodeOpcode (commandWord k op) := by
  rw [decode, rsvdField_commandWord, if_pos rfl]

/-- Decoding the word of a command gives it back. -/
theorem decode_encode (i : Instr) : decode (encode i) = .ok i := by
  cases i <;>
    simp [encode, decode_commandWord, decodeOpcode, withoutIfid, opcodeField_commandWord, ifidField_commandWord]

/-- A command without an interface is decoded from a word whose IFID is 0. -/
theorem withoutIfid_eq_ok {w : Word} {i j : Instr} (h : withoutIfid w i = .ok j) : ifidField w = 0#8 ∧ i = j := by
  unfold withoutIfid at h
  split at h
  · next hk => exact ⟨hk, Except.ok.inj h⟩
  · cases h

/-- The fields of a word that decodes make the word of what it decodes to. -/
theorem encode_of_decodeOpcode {w : Word} {i : Instr} (h : decodeOpcode w = .ok i) :
    encode i = commandWord (ifidField w) (opcodeField w) := by
  have hplain {op : Byte} {j : Instr} (hop : opcodeField w = op) (hj : withoutIfid w j = .ok i)
      (hw : encode j = commandWord 0x00#8 op) : encode i = commandWord (ifidField w) (opcodeField w) := by
    obtain ⟨hk, rfl⟩ := withoutIfid_eq_ok hj
    rw [hw, hk, hop]
  have hifid {op : Byte} {j : Instr} (hop : opcodeField w = op) (hj : Except.ok (ε := Illegal) j = .ok i)
      (hw : encode j = commandWord (ifidField w) op) : encode i = commandWord (ifidField w) (opcodeField w) := by
    rw [← Except.ok.inj hj, hw, hop]
  unfold decodeOpcode at h
  split_ifs at h with h1 h2 h3 h4 h5 h6 h7 h8 h9
  · exact hplain h1 h rfl
  · exact hplain h2 h rfl
  · exact hplain h3 h rfl
  · exact hplain h4 h rfl
  · exact hplain h5 h rfl
  · exact hifid h6 h rfl
  · exact hifid h7 h rfl
  · exact hifid h8 h rfl
  · exact hifid h9 h rfl

/-- A word that decodes is the word of what it decodes to. -/
theorem encode_of_decode {w : Word} {i : Instr} (h : decode w = .ok i) : encode i = w := by
  unfold decode at h
  split at h
  · next hr => rw [encode_of_decodeOpcode h, commandWord_fields hr]
  · cases h

end Sys2Proof.Laws
end

section
/-! SUPPORT. What a command can do: it reports one error, or it performs the effect of its row and completes
(spec/30_encoding.md R100, 60_exceptions.md R236, R237). -/

namespace Sys2Proof.Machine

open Sys2Proof.Safety

/-! ### Writes to frame memory alone -/

/-- `u` is `s` but for frame memory, which keeps its canonical form: what writes inside frame memory make of `s`. -/
def OnlyMem (s u : State) : Prop := ∃ m : Memory, (s.fmem.wf → m.wf) ∧ u = { s with fmem := m }

theorem OnlyMem.refl (s : State) : OnlyMem s s := ⟨s.fmem, id, rfl⟩

/-- One more write inside frame memory. -/
theorem OnlyMem.setMem {s u : State} (h : OnlyMem s u) {a : Nat} {bs : List Byte} (ha : a + bs.length ≤ 0x1000) :
    OnlyMem s (setMem a bs u) := by
  obtain ⟨m, hm, rfl⟩ := h
  exact ⟨m.write a bs, fun hs => Memory.write_wf bs (hm hs) ha, rfl⟩

/-! ### The effect of a command -/

/-- `s` with a route appended and stored in the trie: R124's writes to the stores. -/
def insertRoute (s : State) : State :=
  { s with
    routes := s.routes ++ [argRoute s]
    nodes := storeRoute s.nodes s.arg0 (depth s.params.depthExtra s.arg1) s.routes.length }

/-- What a command that passes its checks can have made of `s` before `complete_ok()`, command by command. -/
def Performs : Instr → State → State → Prop
  | .lpmInsert, s, u =>
    (s.routes.length ≠ s.params.routeCap ∧
      s.nodes.length + need s.nodes s.arg0 (depth s.params.depthExtra s.arg1) ≤ s.params.nodeCap) ∧
    u = setRes (BitVec.ofNat 32 s.routes.length)
      (BitVec.ofNat 32 (need s.nodes s.arg0 (depth s.params.depthExtra s.arg1))) 0#32 0#32 (insertRoute s)
  | .lpmLookup, s, u => ∃ r0 r1 r2 r3 f, u = setFound f (setRes r0 r1 r2 r3 s)
  | .csum, s, u => ∃ c, u = csumResult c s
  | .csumFill, s, u | .icmpEchoReply, s, u => ∃ c v, OnlyMem s v ∧ u = csumResult c v
  | .icmpDestUnreach k, s, u | .icmpTimeExceeded k, s, u =>
    k.toNat < s.params.nif ∧
    ∃ ci cc v, OnlyMem s v ∧ u = setRes (zext32 ci) (zext32 cc) 0#32 0#32 (setTx 50#16 k v)
  | .arpRequest k, s, u | .arpReply k, s, u =>
    k.toNat < s.params.nif ∧
    ∃ v, OnlyMem s v ∧ u = setRes 0#32 0#32 0#32 0#32 (setTx 42#16 k v)

/-! ### What a passed check says -/

theorem of_checkIfid_pass {k : Byte} {s : State} {c : Check} (h : checkIfid k s c = .pass) :
    k.toNat < s.params.nif := by
  unfold checkIfid at h
  split at h
  · cases h
  · omega

theorem of_checkCapacity_pass {s : State} (h : checkCapacity s = .pass) :
    s.routes.length ≠ s.params.routeCap ∧
      s.nodes.length + need s.nodes s.arg0 (depth s.params.depthExtra s.arg1) ≤ s.params.nodeCap := by
  unfold checkCapacity at h
  split_ifs at h with hr hn
  exact ⟨hr, by omega⟩

theorem of_checkRange_pass {s : State} {c : Check} (h : checkRange s c = .pass) : c = .pass := by
  unfold checkRange at h
  split at h
  · cases h
  · exact h

theorem of_checkField_pass {s : State} {c : Check} (h : checkField s c = .pass) : s.arg2.toNat + 2 ≤ 0x1000 := by
  unfold checkField at h
  split at h
  · cases h
  · omega

/-! ### Each command performs its effect -/

variable {s t : State} {k : Byte}

theorem performs_lpmInsert (hc : firstError .lpmInsert s = .pass) (h : exec .lpmInsert s = .next t) :
    ∃ u, t = completeOk u ∧ Performs .lpmInsert s u := by
  rw [exec_lpmInsert_of_pass hc, performLpmInsert, insertPath_created] at h
  exact ⟨_, (Host.Outcome.next.inj h).symm, of_checkCapacity_pass hc, rfl⟩

theorem performs_lpmLookup (h : exec .lpmLookup s = .next t) : ∃ u, t = completeOk u ∧ Performs .lpmLookup s u := by
  rw [exec_lpmLookup] at h
  refine ⟨_, (Host.Outcome.next.inj h).symm, ?_⟩
  obtain ⟨best, r, -, -, e⟩ | ⟨-, e⟩ := lookupResult_cases s
  · exact ⟨_, _, _, _, _, e⟩
  · exact ⟨_, _, _, _, _, e⟩

theorem performs_csum (hc : firstError .csum s = .pass) (h : exec .csum s = .next t) :
    ∃ u, t = completeOk u ∧ Performs .csum s u := by
  rw [exec_csum_of_pass hc] at h
  obtain ⟨bs, -, -, h⟩ := reading_eq_next h
  exact ⟨_, (Host.Outcome.next.inj h).symm, _, rfl⟩

theorem performs_csumFill (hc : firstError .csumFill s = .pass) (h : exec .csumFill s = .next t) :
    ∃ u, t = completeOk u ∧ Performs .csumFill s u := by
  rw [exec_csumFill_of_pass hc] at h
  obtain ⟨bs, -, -, h⟩ := reading_eq_next h
  have hf : s.arg2.toNat + 2 ≤ 0x1000 := of_checkField_pass (of_checkRange_pass hc)
  exact ⟨_, (Host.Outcome.next.inj h).symm, _, _, ((OnlyMem.refl s).setMem hf).setMem hf, rfl⟩

/-- The writes of R184 stay inside RXBUF. -/
theorem onlyMem_echoWrites {src dst : List Byte} (ck : Half) (hs : src.length = 4) (hd : dst.length = 4) :
    OnlyMem s (setMem 36 (tobe16 ck) (setMem 36 [0x00#8, 0x00#8] (setMem 30 src (setMem 26 dst
      (setMem 34 [0x00#8, 0x00#8] s))))) := by
  refine (((((OnlyMem.refl s).setMem ?_).setMem ?_).setMem ?_).setMem ?_).setMem ?_ <;> simp [hs, hd]

theorem performs_icmpEchoReply (hc : firstError .icmpEchoReply s = .pass) (h : exec .icmpEchoReply s = .next t) :
    ∃ u, t = completeOk u ∧ Performs .icmpEchoReply s u := by
  rw [exec, execIcmpEchoReply, performing_of_pass _ hc] at h
  obtain ⟨tl, -, -, h⟩ := reading_eq_next h
  obtain ⟨src, hsrc, -, h⟩ := reading_eq_next h
  obtain ⟨dst, hdst, -, h⟩ := reading_eq_next h
  obtain ⟨msg, -, -, h⟩ := reading_eq_next h
  exact ⟨_, (Host.Outcome.next.inj h).symm, _, _, onlyMem_echoWrites (internetCsum msg) hsrc hdst, rfl⟩

/-- The ICMP error builder writes TXBUF, both checksums, TX_LEN and TX_IF. -/
theorem buildIcmpError_eq_next {type : Byte} (h : buildIcmpError type k s = .next t) :
    ∃ ci cc v, OnlyMem s v ∧ t = completeOk (setRes (zext32 ci) (zext32 cc) 0#32 0#32 (setTx 50#16 k v)) := by
  unfold buildIcmpError at h
  obtain ⟨smac, hsmac, -, h⟩ := reading_eq_next h
  obtain ⟨orig, horig, -, h⟩ := reading_eq_next h
  obtain ⟨osrc, hosrc, -, h⟩ := reading_eq_next h
  obtain ⟨ipHeader, -, -, h⟩ := reading_eq_next h
  obtain ⟨icmp, -, -, h⟩ := reading_eq_next h
  refine ⟨_, _, _, ?_, (Host.Outcome.next.inj h).symm⟩
  refine ((((((((((OnlyMem.refl s).setMem ?_).setMem ?_).setMem ?_).setMem ?_).setMem ?_).setMem ?_).setMem ?_).setMem
    ?_).setMem ?_).setMem ?_
  all_goals simp [hsmac, horig, hosrc, errorIpHeader]

theorem performs_icmpDestUnreach (hc : firstError (.icmpDestUnreach k) s = .pass)
    (h : exec (.icmpDestUnreach k) s = .next t) : ∃ u, t = completeOk u ∧ Performs (.icmpDestUnreach k) s u := by
  rw [exec_icmpDestUnreach_of_pass hc] at h
  obtain ⟨ci, cc, v, hv, rfl⟩ := buildIcmpError_eq_next h
  exact ⟨_, rfl, of_checkIfid_pass hc, ci, cc, v, hv, rfl⟩

theorem performs_icmpTimeExceeded (hc : firstError (.icmpTimeExceeded k) s = .pass)
    (h : exec (.icmpTimeExceeded k) s = .next t) : ∃ u, t = completeOk u ∧ Performs (.icmpTimeExceeded k) s u := by
  rw [exec_icmpTimeExceeded_of_pass hc] at h
  obtain ⟨ci, cc, v, hv, rfl⟩ := buildIcmpError_eq_next h
  exact ⟨_, rfl, of_checkIfid_pass hc, ci, cc, v, hv, rfl⟩

/-- Sending an ARP frame of 42 bytes writes TXBUF, TX_LEN and TX_IF. -/
theorem sendArp_eq_next {frame : List Byte} (hl : frame.length = 42) (h : sendArp k frame s = .next t) :
    ∃ v, OnlyMem s v ∧ t = completeOk (setRes 0#32 0#32 0#32 0#32 (setTx 42#16 k v)) :=
  ⟨_, (OnlyMem.refl s).setMem (by rw [hl]; decide), (Host.Outcome.next.inj h).symm⟩

theorem arpFrame_length (s : State) (k oper : Byte) {dst tha tpa : List Byte} (hd : dst.length = 6)
    (hh : tha.length = 6) (hp : tpa.length = 4) : (arpFrame s k dst oper tha tpa).length = 42 := by
  simp [arpFrame, hd, hh, hp]

theorem performs_arpRequest (hc : firstError (.arpRequest k) s = .pass) (h : exec (.arpRequest k) s = .next t) :
    ∃ u, t = completeOk u ∧ Performs (.arpRequest k) s u := by
  rw [exec_arpRequest_of_pass hc] at h
  obtain ⟨v, hv, rfl⟩ := sendArp_eq_next (arpFrame_length s k _ rfl rfl rfl) h
  exact ⟨_, rfl, of_checkIfid_pass hc, v, hv, rfl⟩

theorem performs_arpReply (hc : firstError (.arpReply k) s = .pass) (h : exec (.arpReply k) s = .next t) :
    ∃ u, t = completeOk u ∧ Performs (.arpReply k) s u := by
  rw [exec_arpReply_of_pass hc] at h
  obtain ⟨rmac, hrmac, -, h⟩ := reading_eq_next h
  obtain ⟨rsha, hrsha, -, h⟩ := reading_eq_next h
  obtain ⟨rspa, hrspa, -, h⟩ := reading_eq_next h
  obtain ⟨v, hv, rfl⟩ := sendArp_eq_next (arpFrame_length s k _ hrmac hrsha hrspa) h
  exact ⟨_, rfl, of_checkIfid_pass hc, v, hv, rfl⟩

/-- Everything a command that answers a next state can have done: one error and nothing else, or its effect. -/
theorem exec_eq_next {i : Instr} (h : exec i s = .next t) :
    (∃ e, e ≠ .none ∧ t = errorState e s) ∨ ∃ u, t = completeOk u ∧ Performs i s u := by
  obtain hc | ⟨e, he, -, rfl⟩ := exec_eq_next_cases h
  · right
    cases i with
    | lpmInsert => exact performs_lpmInsert hc h
    | lpmLookup => exact performs_lpmLookup h
    | csum => exact performs_csum hc h
    | csumFill => exact performs_csumFill hc h
    | icmpEchoReply => exact performs_icmpEchoReply hc h
    | icmpDestUnreach k => exact performs_icmpDestUnreach hc h
    | icmpTimeExceeded k => exact performs_icmpTimeExceeded hc h
    | arpRequest k => exact performs_arpRequest hc h
    | arpReply k => exact performs_arpReply hc h
  · exact .inl ⟨e, he, rfl⟩

/-! ### The frame of the effects -/

/-- The length of the TXBUF frame a command builds and its interface, if it builds one (10_state.md R33, R34). -/
def txOf : Instr → Option (Half × Byte)
  | .icmpDestUnreach k | .icmpTimeExceeded k => some (50#16, k)
  | .arpRequest k | .arpReply k => some (42#16, k)
  | .lpmInsert | .lpmLookup | .csum | .csumFill | .icmpEchoReply => none

/-- What the effect of a command leaves unchanged, and how far it changes what it may. -/
structure Frame (i : Instr) (s u : State) : Prop where
  /-- No effect writes what no command writes. -/
  operands : SameOperands s u
  /-- Only an insertion writes the stores. -/
  stores : i ≠ .lpmInsert → SameStores s u
  /-- Only a lookup writes STATUS, before completion. -/
  status : i ≠ .lpmLookup → u.status = s.status
  /-- Frame memory keeps its canonical form. -/
  fmem : s.fmem.wf → u.fmem.wf
  /-- TX_LEN and TX_IF name the frame a builder leaves, on an interface below P_NIF, and are kept by the others. -/
  tx : match txOf i with
    | some (len, k) => u.txLen = len ∧ u.txIf = k ∧ k.toNat < s.params.nif
    | none => SameTx s u

/-- Every effect has its frame. -/
theorem Performs.frame {i : Instr} {s u : State} (h : Performs i s u) : Frame i s u := by
  cases i with
  | lpmInsert =>
    obtain ⟨-, rfl⟩ := h
    exact ⟨by simp [SameOperands, insertRoute], fun hi => absurd rfl hi, fun _ => rfl, id, rfl, rfl⟩
  | lpmLookup =>
    obtain ⟨r0, r1, r2, r3, f, rfl⟩ := h
    exact ⟨by simp [SameOperands], fun _ => ⟨rfl, rfl⟩, fun hi => absurd rfl hi, id, rfl, rfl⟩
  | csum =>
    obtain ⟨c, rfl⟩ := h
    exact ⟨by simp [SameOperands, csumResult], fun _ => ⟨rfl, rfl⟩, fun _ => rfl, id, rfl, rfl⟩
  | csumFill | icmpEchoReply =>
    obtain ⟨c, _, ⟨m, hm, rfl⟩, rfl⟩ := h
    exact ⟨by simp [SameOperands, csumResult], fun _ => ⟨rfl, rfl⟩, fun _ => rfl, hm, rfl, rfl⟩
  | icmpDestUnreach k | icmpTimeExceeded k =>
    obtain ⟨hk, ci, cc, _, ⟨m, hm, rfl⟩, rfl⟩ := h
    exact ⟨by simp [SameOperands], fun _ => ⟨rfl, rfl⟩, fun _ => rfl, hm, rfl, rfl, hk⟩
  | arpRequest k | arpReply k =>
    obtain ⟨hk, _, ⟨m, hm, rfl⟩, rfl⟩ := h
    exact ⟨by simp [SameOperands], fun _ => ⟨rfl, rfl⟩, fun _ => rfl, hm, rfl, rfl, hk⟩

end Sys2Proof.Machine
end

section
/-! SUPPORT. One step, as the facts of the whole machine need it: what a step can make of the stores, and that what a
host move does keeps the invariant (spec/20_memory.md R71, R75). -/

namespace Sys2Proof.Machine

open Sys2Proof.Safety

/-! ### Host moves -/

/-- What an access that answers a next state did: it read, or it wrote, inside the window. -/
theorem hostAccess_next_cases {acc : Access} {s t : State} (h : hostAccess acc s = .next t) :
    (∃ v d, t = { s with resp := some (.value v), draws := d }) ∨
    ∃ off w v, off < 0x2000 ∧ legalAccess off w = true ∧ t = { hostWrite off w v s with resp := some .written } := by
  obtain ⟨off, hoff, hl, rfl⟩ := hostAccess_eq_next h
  cases acc with
  | read a w => exact .inl (hostRead_cases off w s)
  | write a w v =>
    refine .inr ⟨off, w, v, ?_, hl, rfl⟩
    unfold windowOffset at hoff
    split at hoff
    · have := Option.some.inj hoff
      omega
    · cases hoff

/-- A write of CTRL starts a reset or writes IRQ_EN. -/
theorem writeCtrl_cases (v : Word) (s : State) :
    writeCtrl v s = startReset s ∨ writeCtrl v s = { s with irqEn := v.getLsbD 1 } := by
  unfold writeCtrl
  split
  · exact .inl rfl
  · exact .inr rfl

theorem writeCtrl_of_bit0_clear {v : Word} (h : v.getLsbD 0 = false) (s : State) :
    writeCtrl v s = { s with irqEn := v.getLsbD 1 } := by rw [writeCtrl, h, if_neg Bool.false_ne_true]

theorem writeCmd_of_busy {s : State} (v : Word) (h : s.busy = true) :
    writeCmd v s = { s with status := { s.status with ovr := true } } := by rw [writeCmd, if_pos h]

theorem writeCmd_of_idle {s : State} (v : Word) (h : s.busy = false) : writeCmd v s = accept v s := by
  rw [writeCmd, h, if_neg Bool.false_ne_true]

theorem busy_eq_false_iff {s : State} : s.busy = false ↔ s.pending = false ∧ s.resetting = false := by simp [State.busy]

/-- One poll of `WAIT` answers STATUS and gives the turn. -/
theorem hostWait_cases (s : State) : ∃ v l, hostWait s = { s with resp := some (.value v), inputs := l } := by
  unfold hostWait
  split
  · exact ⟨_, _, rfl⟩
  · exact ⟨_, s.inputs, rfl⟩

/-! ### The turn of a pending command -/

/-- A pending command whose word decodes is performed at the sequencer's turn. -/
theorem engineTurn_of_decode {s : State} {i : Instr} (hr : s.resetting = false) (hp : s.pending = true)
    (hd : decode s.cmd = .ok i) : engineTurn s = exec i s := by
  rw [engineTurn, if_neg (by simp [hr]), if_pos hp, runCommand, hd]

/-- A completion sets DONE. -/
theorem done_of_exec {i : Instr} {s t : State} (h : exec i s = .next t) : t.status.done = true := by
  obtain ⟨e, -, rfl⟩ | ⟨u, rfl, -⟩ := exec_eq_next h
  · rfl
  · rfl

/-- The turn that a pending command gets sets DONE. -/
theorem done_of_engineTurn {s t : State} (hr : s.resetting = false) (hp : s.pending = true)
    (h : engineTurn s = .next t) : t.status.done = true := by
  obtain ⟨hr', -⟩ | ⟨hr', -⟩ | ⟨-, hp', -⟩ | ⟨-, -, ⟨x, -, e⟩ | ⟨i, -, e⟩⟩ := engineTurn_cases s
  · simp [hr] at hr'
  · simp [hr] at hr'
  · simp [hp] at hp'
  · cases e.symm.trans h
    rfl
  · exact done_of_exec (e.symm.trans h)

/-- The step that gives a pending command its turn sets DONE. -/
theorem done_of_step_engine {s t : State} {rest : List Input} (h : step s = .next t) (hi : s.inputs = .engine :: rest)
    (hr : s.resetting = false) (hp : s.pending = true) : t.status.done = true := by
  obtain ⟨hz, -⟩ := step_eq_next h
  rw [step_engine hz hi] at h
  exact done_of_engineTurn (s := { s with inputs := rest }) hr hp h

/-- A run of one step more that answers a next state is a step and the run after it. -/
theorem run_succ_eq_next {M : Host.Core} {k : Nat} {s t : M.State} (h : M.run (k + 1) s = .next t) :
    ∃ u, M.step s = .next u ∧ M.run k u = .next t := by
  rw [Host.Core.run] at h
  split at h
  · next u hu => exact ⟨u, hu, h⟩
  · cases h
  · cases h

/-! ### What a step can make of the stores -/

/-- The parameters are as before, and so are the stores, or they are as a reset's start leaves them. -/
def StoresKeptOrReset (s t : State) : Prop :=
  t.params = s.params ∧ (SameStores s t ∨ (t.resetting = true ∧ t.routes = [] ∧ t.nodes = [Node.empty]))

theorem StoresKeptOrReset.kept {s t : State} (hp : t.params = s.params) (hs : SameStores s t) : StoresKeptOrReset s t :=
  ⟨hp, .inl hs⟩

/-- A reset's start empties both stores, whatever the pin's level. -/
theorem storesKeptOrReset_startReset (s : State) (level : Bool) :
    StoresKeptOrReset s { startReset s with rst := level } :=
  ⟨rfl, .inr ⟨rfl, rfl, rfl⟩⟩

theorem storesKeptOrReset_writeReg (r : Reg) (v : Word) (s : State) : StoresKeptOrReset s (writeReg r v s) := by
  cases r with
  | ctrl =>
    rw [writeReg]
    obtain e | e := writeCtrl_cases v s <;> rw [e]
    · exact storesKeptOrReset_startReset s s.rst
    · exact .kept rfl ⟨rfl, rfl⟩
  | cmd =>
    rw [writeReg, writeCmd]
    split <;> exact .kept rfl ⟨rfl, rfl⟩
  | status | arg0 | arg1 | arg2 | arg3 | rxLen | ifIp | ifMacLo | ifMacHi | id | res0 | res1 | res2 | res3 | txLen
  | txIf | routeCount | nodeCount | cfg | routeCap | nodeCap => exact .kept rfl ⟨rfl, rfl⟩

theorem storesKeptOrReset_hostAccess {acc : Access} {s t : State} (h : hostAccess acc s = .next t) :
    StoresKeptOrReset s t := by
  obtain ⟨v, d, rfl⟩ | ⟨off, w, v, -, -, rfl⟩ := hostAccess_next_cases h
  · exact .kept rfl ⟨rfl, rfl⟩
  · suffices hw : StoresKeptOrReset s (hostWrite off w v s) from hw
    obtain ⟨-, -, e⟩ | ⟨-, e⟩ | ⟨-, r, -, -, e⟩ | ⟨-, -, e⟩ := hostWrite_cases off w v s <;> rw [e]
    · exact .kept rfl ⟨rfl, rfl⟩
    · exact .kept rfl ⟨rfl, rfl⟩
    · exact storesKeptOrReset_writeReg r v s
    · exact .kept rfl ⟨rfl, rfl⟩

/-- A successful LPM_INSERT led from `s` to `t`. -/
def Inserted (s t : State) : Prop :=
  decode s.cmd = .ok .lpmInsert ∧ s.pending = true ∧ ∃ u, t = completeOk u ∧ Performs .lpmInsert s u

theorem engineTurn_storesKept_or_inserted {s t : State} (h : engineTurn s = .next t) :
    StoresKeptOrReset s t ∨ Inserted s t := by
  obtain ⟨-, -, e⟩ | ⟨-, -, e⟩ | ⟨-, -, e⟩ | ⟨-, hp, ⟨x, -, e⟩ | ⟨i, hd, e⟩⟩ := engineTurn_cases s <;> rw [e] at h
  · cases h
    exact .inl (.kept rfl ⟨rfl, rfl⟩)
  · cases h
    exact .inl (.kept rfl ⟨rfl, rfl⟩)
  · cases h
    exact .inl (.kept rfl ⟨rfl, rfl⟩)
  · cases h
    exact .inl (.kept rfl ⟨rfl, rfl⟩)
  · obtain ⟨e, -, rfl⟩ | ⟨u, rfl, hu⟩ := exec_eq_next h
    · exact .inl (.kept rfl ⟨rfl, rfl⟩)
    · by_cases hi : i = .lpmInsert
      · subst hi
        exact .inr ⟨hd, hp, u, rfl, hu⟩
      · exact .inl (.kept hu.frame.operands.1 (hu.frame.stores hi))

/-- A step keeps the stores, starts a reset, or performs a successful LPM_INSERT. -/
theorem step_storesKept_or_inserted {s t : State} (h : step s = .next t) :
    StoresKeptOrReset s t ∨ ∃ rest, Inserted { s with inputs := rest } t := by
  obtain ⟨-, ⟨-, h⟩ | ⟨rest, -, h⟩ | ⟨a, rest, -, h⟩ | ⟨rest, -, rfl⟩ | ⟨rest, -, rfl⟩ | ⟨rest, -, rfl⟩⟩ :=
    step_eq_next h
  · exact (engineTurn_storesKept_or_inserted h).imp_right fun hi => ⟨s.inputs, hi⟩
  · exact (engineTurn_storesKept_or_inserted h).imp_right fun hi => ⟨rest, hi⟩
  · exact .inl (storesKeptOrReset_hostAccess (s := { s with inputs := rest }) h)
  · obtain ⟨v, l, e⟩ := hostWait_cases { s with inputs := rest }
    rw [e]
    exact .inl (.kept rfl ⟨rfl, rfl⟩)
  · exact .inl (storesKeptOrReset_startReset s true)
  · exact .inl (.kept rfl ⟨rfl, rfl⟩)

end Sys2Proof.Machine
end

section
/-! SUPPORT. Every kind of move keeps the invariant of the machine. -/

namespace Sys2Proof.Safety

open Sys2Proof.Machine Sys2Proof.Laws

/-! ### Moves that touch no field the invariant speaks of -/

/-- The invariant speaks of no input, response, draw or hazard mark. -/
theorem Inv.outside {s : State} (h : Inv s) (l : List Input) (r : Option Response) (d : Nat) (hz : Bool) :
    Inv { s with inputs := l, resp := r, draws := d, hazard := hz } :=
  ⟨h.params, h.iftab, h.fmem, h.routeCap, h.nodeCap, h.trie, h.discarded, h.held, h.busyClear, h.errCode, h.found,
    h.txLen, h.txIf⟩

/-- The invariant does not depend on CTRL and the operand registers, and of IFTAB only on its length. -/
theorem Inv.operands {s : State} (h : Inv s) (en : Bool) (a0 a1 a2 a3 : Word) (rx : Half) {tab : List IfEntry}
    (ht : tab.length = s.iftab.length) :
    Inv { s with irqEn := en, arg0 := a0, arg1 := a1, arg2 := a2, arg3 := a3, rxLen := rx, iftab := tab } :=
  ⟨h.params, ht.trans h.iftab, h.fmem, h.routeCap, h.nodeCap, h.trie, h.discarded, h.held, h.busyClear, h.errCode,
    h.found, h.txLen, h.txIf⟩

/-- A change of frame memory that keeps its form keeps the invariant. -/
theorem Inv.setFmem {s : State} (h : Inv s) {m : Memory} (hm : m.wf) : Inv { s with fmem := m } :=
  ⟨h.params, h.iftab, hm, h.routeCap, h.nodeCap, h.trie, h.discarded, h.held, h.busyClear, h.errCode, h.found,
    h.txLen, h.txIf⟩

/-- OVR may take any value and DONE may be cleared. -/
theorem Inv.setDoneOvr {s : State} (h : Inv s) {d o : Bool} (hd : s.status.done = false → d = false) :
    Inv { s with status := { s.status with done := d, ovr := o } } :=
  ⟨h.params, h.iftab, h.fmem, h.routeCap, h.nodeCap, h.trie, h.discarded, h.held,
    fun hb => ⟨hd (h.busyClear hb).1, (h.busyClear hb).2⟩, h.errCode, h.found, h.txLen, h.txIf⟩

/-! ### Acceptance, reset and completion -/

theorem Inv.accept {s : State} (h : Inv s) (w : Word) (hb : s.busy = false) : Inv (accept w s) :=
  ⟨h.params, h.iftab, h.fmem, h.routeCap, h.nodeCap, h.trie,
    fun hr => by simp [(busy_eq_false_iff.mp hb).2] at hr, h.held, fun _ => by simp, by simp, by simp, h.txLen, h.txIf⟩

/-- A reset in progress meets the invariant, whatever state it started in and whatever the pin's level. -/
theorem inv_startReset {s : State} (h : s.params.legal) (level : Bool) : Inv { startReset s with rst := level } where
  params := h
  iftab := List.length_replicate
  fmem := startReset_wf s
  routeCap := Nat.zero_le _
  nodeCap := h.2.1.1
  trie := (build_nil _).symm
  discarded := fun _ => rfl
  held := fun _ => rfl
  busyClear := fun _ => ⟨rfl, rfl, rfl, rfl⟩
  errCode := by simp [Status.zero]
  found := by simp [Status.zero]
  txLen := .inl rfl
  txIf := h.2.2.1.1

theorem Inv.rstDeasserted {s : State} (h : Inv s) : Inv (rstDeasserted s) :=
  ⟨h.params, h.iftab, h.fmem, h.routeCap, h.nodeCap, h.trie, h.discarded, fun hr => by simp at hr, h.busyClear,
    h.errCode, h.found, h.txLen, h.txIf⟩

theorem Inv.endReset {s : State} (h : Inv s) (hr : s.resetting = true) (hrst : s.rst = false) : Inv (endReset s) :=
  ⟨h.params, h.iftab, h.fmem, h.routeCap, h.nodeCap, h.trie, fun hr' => by simp at hr',
    fun hr' => by simp [hrst] at hr', fun _ => h.busyClear (by simp [State.busy, hr]), h.errCode, h.found, h.txLen,
    h.txIf⟩

theorem Inv.errorState {s : State} (h : Inv s) (hr : s.resetting = false) {e : ErrorCode} (he : e ≠ .none) :
    Inv (errorState e s) :=
  ⟨h.params, h.iftab, h.fmem, h.routeCap, h.nodeCap, h.trie, fun _ => rfl, h.held,
    fun hb => by simp [State.busy, Safety.errorState, hr] at hb, by simp [Safety.errorState, he],
    by simp [Safety.errorState], h.txLen, h.txIf⟩

/-! ### A command's effect -/

/-- An insertion stores its route as `build` does, within both capacities, and RES1 has room for the number of nodes it
creates. -/
theorem Inv.stores_of_insert {s u : State} (h : Inv s) (hu : Performs .lpmInsert s u) :
    u.routes.length = s.routes.length + 1 ∧
    u.nodes.length = s.nodes.length + u.res1.toNat ∧
    u.routes.length ≤ s.params.routeCap ∧ u.nodes.length ≤ s.params.nodeCap ∧
    u.nodes = build s.params.depthExtra u.routes := by
  obtain ⟨⟨hr, hn⟩, rfl⟩ := hu
  have hle := h.routeCap
  obtain ⟨-, ⟨-, hmax⟩, -⟩ := h.params
  have hlen : (s.routes ++ [argRoute s]).length = s.routes.length + 1 := by simp
  refine ⟨hlen, ?_, ?_, ?_, ?_⟩
  · rw [setRes_res1, BitVec.toNat_ofNat, Nat.mod_eq_of_lt (by omega)]
    exact storeRoute_length _ _ _ _
  · show (s.routes ++ [argRoute s]).length ≤ _
    omega
  · show (storeRoute s.nodes s.arg0 _ _).length ≤ _
    rwa [storeRoute_length]
  · show storeRoute s.nodes s.arg0 _ _ = build _ (s.routes ++ [argRoute s])
    rw [build_concat, ← h.trie]
    rfl

/-- Every effect keeps the capacities and the trie. -/
theorem Inv.stores_of_performs {s u : State} {i : Instr} (h : Inv s) (hu : Performs i s u) :
    u.routes.length ≤ s.params.routeCap ∧ u.nodes.length ≤ s.params.nodeCap ∧
    u.nodes = build s.params.depthExtra u.routes := by
  by_cases hi : i = .lpmInsert
  · subst hi
    obtain ⟨-, -, hstores⟩ := h.stores_of_insert hu
    exact hstores
  · obtain ⟨hr, hn⟩ := hu.frame.stores hi
    rw [hr, hn]
    exact ⟨h.routeCap, h.nodeCap, h.trie⟩

/-- TX_LEN and TX_IF keep their ranges. -/
theorem Inv.tx_of_performs {s u : State} {i : Instr} (h : Inv s) (hu : Performs i s u) :
    (u.txLen = 0#16 ∨ u.txLen = 42#16 ∨ u.txLen = 50#16) ∧ u.txIf.toNat < s.params.nif := by
  have htx := hu.frame.tx
  cases i with
  | lpmInsert | lpmLookup | csum | csumFill | icmpEchoReply =>
    obtain ⟨hl, hk⟩ := htx
    rw [hl, hk]
    exact ⟨h.txLen, h.txIf⟩
  | icmpDestUnreach k | icmpTimeExceeded k =>
    obtain ⟨hl, rfl, hlt⟩ := htx
    exact ⟨.inr (.inr hl), hlt⟩
  | arpRequest k | arpReply k =>
    obtain ⟨hl, rfl, hlt⟩ := htx
    exact ⟨.inr (.inl hl), hlt⟩

/-- Among pending commands only LPM_LOOKUP leaves FOUND set: acceptance has cleared it. -/
theorem Inv.found_of_performs {s u : State} {i : Instr} (h : Inv s) (hp : s.pending = true)
    (hd : decode s.cmd = .ok i) (hu : Performs i s u) (hf : u.status.found = true) : s.cmd = 0x00000002#32 := by
  by_cases hi : i = .lpmLookup
  · subst hi
    rw [← encode_of_decode hd]
    rfl
  · obtain ⟨-, -, hclear, -⟩ := h.busyClear (by simp [State.busy, hp])
    rw [hu.frame.status hi, hclear] at hf
    cases hf

/-- A pending command that performs its effect and completes keeps the invariant. -/
theorem Inv.completeOk {s u : State} {i : Instr} (h : Inv s) (hp : s.pending = true) (hr : s.resetting = false)
    (hd : decode s.cmd = .ok i) (hu : Performs i s u) : Inv (completeOk u) := by
  obtain ⟨hparams, -, hcmd, -, -, -, -, -, hiftab, -, hresetting, hrst, -⟩ := hu.frame.operands
  obtain ⟨hrc, hnc, htrie⟩ := h.stores_of_performs hu
  obtain ⟨htl, hti⟩ := h.tx_of_performs hu
  rw [← hparams] at hrc hnc htrie hti
  refine ⟨?_, ?_, hu.frame.fmem h.fmem, hrc, hnc, htrie, fun _ => rfl, fun h' => ?_, fun hb => ?_, by simp,
    fun hf => ⟨?_, rfl⟩, htl, hti⟩
  · rw [completeOk_params, hparams]
    exact h.params
  · rw [completeOk_iftab, completeOk_params, hiftab, hparams]
    exact h.iftab
  · rw [completeOk_rst, hrst] at h'
    rw [completeOk_resetting, hresetting]
    exact h.held h'
  · simp [State.busy, hresetting, hr] at hb
  · rw [completeOk_cmd, hcmd]
    exact h.found_of_performs hp hd hu hf

/-! ### The moves -/

/-- The sequencer's turn keeps the invariant. -/
theorem Inv.engineTurn {s t : State} (h : Inv s) (ht : engineTurn s = .next t) : Inv t := by
  obtain ⟨-, -, e⟩ | ⟨hr, hrst, e⟩ | ⟨-, -, e⟩ | ⟨hr, hp, ⟨x, -, e⟩ | ⟨i, hd, e⟩⟩ := engineTurn_cases s <;>
    rw [e] at ht
  · exact Host.Outcome.next.inj ht ▸ h
  · exact Host.Outcome.next.inj ht ▸ h.endReset hr hrst
  · exact Host.Outcome.next.inj ht ▸ h
  · exact Host.Outcome.next.inj ht ▸ h.errorState hr (by decide)
  · obtain ⟨e, he, rfl⟩ | ⟨u, rfl, hu⟩ := exec_eq_next ht
    · exact h.errorState hr he
    · exact h.completeOk hp hr hd hu

/-- A write of a register keeps the invariant. -/
theorem Inv.writeReg {s : State} (h : Inv s) (r : Reg) (v : Word) : Inv (writeReg r v s) := by
  cases r with
  | ctrl =>
    rw [Machine.writeReg]
    obtain e | e := writeCtrl_cases v s <;> rw [e]
    · exact inv_startReset h.params s.rst
    · exact h.operands _ _ _ _ _ _ rfl
  | status => exact h.setDoneOvr fun hd => by simp [hd]
  | cmd =>
    rw [Machine.writeReg]
    cases hb : s.busy with
    | true =>
      rw [writeCmd_of_busy v hb]
      exact h.setDoneOvr id
    | false =>
      rw [writeCmd_of_idle v hb]
      exact h.accept v hb
  | arg0 | arg1 | arg2 | arg3 | rxLen => exact h.operands _ _ _ _ _ _ rfl
  | ifIp k | ifMacLo k | ifMacHi k => exact h.operands _ _ _ _ _ _ List.length_set
  | id | res0 | res1 | res2 | res3 | txLen | txIf | routeCount | nodeCount | cfg | routeCap | nodeCap => exact h

/-- A legal write of the host keeps the invariant. -/
theorem Inv.hostWrite {s : State} (h : Inv s) {off : Nat} {w : Width} (v : Word) (ho : off < 0x2000)
    (hl : legalAccess off w = true) : Inv (hostWrite off w v s) := by
  have hwf := hostWrite_wf (v := v) h.fmem ho hl
  obtain ⟨-, -, e⟩ | ⟨-, e⟩ | ⟨-, r, -, -, e⟩ | ⟨-, -, e⟩ := hostWrite_cases off w v s <;> rw [e]
  · exact h
  · exact h.outside _ _ _ _
  · exact h.writeReg r v
  · rw [e] at hwf
    exact h.setFmem hwf

/-- An access of the host keeps the invariant. -/
theorem Inv.hostAccess {s t : State} (h : Inv s) {acc : Access} (ht : hostAccess acc s = .next t) : Inv t := by
  obtain ⟨v, d, rfl⟩ | ⟨off, w, v, ho, hl, rfl⟩ := hostAccess_next_cases ht
  · exact h.outside _ _ _ _
  · exact (h.hostWrite v ho hl).outside _ _ _ _

end Sys2Proof.Safety
end

section
/-! The statements about the stores, the parameters, the invariant and the frame of every command
(spec/10_state.md sections 2 to 5). -/

namespace Sys2Proof.Proofs

open Sys2Proof Sys2Proof.Machine Sys2Proof.Safety

/-- Settles O59: each kind of move keeps the invariant, and a step is one of them. -/
theorem stepKeepsTheInvariant : Obligations.StepKeepsTheInvariant := by
  intro s t h ht
  obtain ⟨-, ⟨-, ht⟩ | ⟨rest, -, ht⟩ | ⟨a, rest, -, ht⟩ | ⟨rest, -, rfl⟩ | ⟨rest, -, rfl⟩ | ⟨rest, -, rfl⟩⟩ :=
    step_eq_next ht
  · exact h.engineTurn ht
  · exact (h.outside rest _ _ _).engineTurn ht
  · exact (h.outside rest _ _ _).hostAccess ht
  · obtain ⟨v, l, e⟩ := hostWait_cases { s with inputs := rest }
    rw [e]
    exact h.outside _ _ _ _
  · exact inv_startReset (s := { s with inputs := rest }) h.params true
  · exact (h.outside rest _ _ _).rstDeasserted

/-- Settles O17: the store is what insertions build, and every insertion keeps the tree. -/
theorem nodesFormATree : Obligations.NodesFormATree := by
  intro s h
  rw [h.trie]
  have htree := isTree_build s.params.depthExtra s.routes
  exact ⟨htree.noLinkToRoot, htree.oneParent, htree.inside, htree.reached, fun n r => nodeAt_route_build_lt⟩

/-- Settles O18: an insertion appends to the route store and keeps the links that stand. -/
theorem storesOnlyGrowUntilReset : Obligations.StoresOnlyGrowUntilReset := by
  intro s t ht
  obtain ⟨-, ⟨hr, hn⟩ | hreset⟩ | ⟨rest, -, -, u, rfl, -, rfl⟩ := step_storesKept_or_inserted ht
  · rw [hr, hn]
    exact .inl ⟨fun _ _ => id, fun _ _ _ => id, le_rfl⟩
  · exact .inr hreset
  · refine .inl ⟨fun r e he => ?_, fun n b c hc => childOf_storeRoute _ _ _ hc, ?_⟩
    · exact (List.getElem?_append_left (List.getElem?_eq_some_iff.mp he).1).trans he
    · simp [insertRoute]

/-- Settles O19: an insertion passed the capacity checks, and it reports in RES1 how many nodes it creates. -/
theorem countsChangeOnlyByInsertOrReset : Obligations.CountsChangeOnlyByInsertOrReset := by
  intro s t h ht
  obtain ⟨-, hsame | ⟨hr, h1, h2⟩⟩ | ⟨rest, hd, hp, u, rfl, hu⟩ := step_storesKept_or_inserted ht
  · exact .inl hsame
  · exact .inr (.inr ⟨hr, by simp [h1], by simp [h2]⟩)
  · obtain ⟨hlen, hnlen, hrc, hnc, -⟩ := (h.outside rest _ _ _).stores_of_insert hu
    obtain ⟨hparams, -⟩ := hu.frame.operands
    rw [← hparams] at hrc hnc
    exact .inr (.inl ⟨hd, hp, rfl, hlen, hnlen, hrc, hnc⟩)

/-- Settles O36: an error leaves both registers, and each effect writes them as its row says. -/
theorem txRegistersNameTheLastFrame : Obligations.TxRegistersNameTheLastFrame := by
  intro i s t ht
  obtain ⟨e, -, rfl⟩ | ⟨u, rfl, hu⟩ := exec_eq_next ht
  · exact ⟨fun _ => ⟨rfl, rfl⟩, fun h => by cases h⟩
  · refine ⟨fun h => (by cases h), fun _ => ?_⟩
    have htx := hu.frame.tx
    cases i with
    | lpmInsert | lpmLookup | csum | csumFill | icmpEchoReply => exact htx
    | icmpDestUnreach k | icmpTimeExceeded k | arpRequest k | arpReply k => exact ⟨htx.1, htx.2.1⟩

/-- Settles O37: neither an error, nor an effect, nor the completion writes an operand. -/
theorem commandsNeverWriteOperands : Obligations.CommandsNeverWriteOperands := by
  intro i s t ht
  obtain ⟨e, -, rfl⟩ | ⟨u, rfl, hu⟩ := exec_eq_next ht
  · simp [SameOperands, errorState]
  · simpa [SameOperands] using hu.frame.operands

/-- Settles O57: a step keeps the parameters whatever it does to the stores. -/
theorem parametersNeverChange : Obligations.ParametersNeverChange := by
  intro s t ht
  obtain ⟨hp, -⟩ | ⟨rest, -, -, u, rfl, hu⟩ := step_storesKept_or_inserted ht
  · exact hp
  · exact hu.frame.operands.1

end Sys2Proof.Proofs
end

section
/-! SUPPORT. The registers as the host reaches them: the offsets of the register table and of IFTAB, one read or write
as one step, and the words of STATUS and CFG as numbers (spec/10_state.md section 2, R40). -/

namespace Sys2Proof.Machine

open Sys2Proof.Safety

/-! ### Offsets -/

/-- Every offset of the register table lies below IFTAB and is a multiple of 4. -/
theorem regTable_offsets : ∀ p ∈ regTable, p.1 < 0x100 ∧ p.1 % 4 = 0 := by decide

/-- The register of the table at an offset, and that the offset is an aligned one below IFTAB. -/
theorem regAt_of_lookup {off : Nat} {r : Reg} (p : Params) (h : regTable.lookup off = some r) :
    regAt p off = some r ∧ off < 0x1000 ∧ off % 4 = 0 := by
  obtain ⟨l₁, l₂, e, -⟩ := List.lookup_eq_some_iff.mp h
  obtain ⟨hlt, h4⟩ := regTable_offsets (off, r) (by simp [e])
  simp only at hlt h4
  exact ⟨by rw [regAt, if_neg (by omega), h], by omega, h4⟩

/-- The three registers of an interface's slot of IFTAB (10_state.md R40). -/
theorem regAt_iftab {p : Params} {k : Nat} (hk : k < p.nif) (h16 : k < 16) :
    regAt p (0x100 + 16 * k) = some (.ifIp k) ∧ regAt p (0x104 + 16 * k) = some (.ifMacLo k) ∧
      regAt p (0x108 + 16 * k) = some (.ifMacHi k) := by
  have hslot (c : Nat) (hc : c < 16) : (0x100 + c + 16 * k - 0x100) / 16 = k ∧ (0x100 + c + 16 * k) % 16 = c := by omega
  have e0 := hslot 0 (by omega)
  have e4 := hslot 4 (by omega)
  have e8 := hslot 8 (by omega)
  refine ⟨?_, ?_, ?_⟩
  · rw [regAt, if_pos (by omega), ifRegAt]
    simp [e0, hk]
  · rw [regAt, if_pos (by omega), ifRegAt]
    simp [e4, hk]
  · rw [regAt, if_pos (by omega), ifRegAt]
    simp [e8, hk]

/-! ### One access of a register as one step -/

variable {s : State} {rest : List Input} {off : Nat} {r : Reg} {v : Word}

/-- A read of a register that BUSY does not make a hazard answers what the register holds. -/
theorem step_readReg (hz : s.hazard = false) (hr : regAt s.params off = some r) (ho : off < 0x1000) (h4 : off % 4 = 0)
    (hb : s.busy = false ∨ r.safeWhileBusy = true)
    (hi : s.inputs = .access (.read (s.params.base + off) .four) :: rest) :
    step s = .next { s with inputs := rest, resp := some (.value (readReg s r)) } := by
  rw [step_access hz hi]
  exact hostAccess_readReg (s := { s with inputs := rest }) hr ho h4 hb

/-- A write of a register that BUSY does not make a hazard is the register's own write. -/
theorem step_writeReg {u : State} (hz : s.hazard = false) (hr : regAt s.params off = some r) (ho : off < 0x1000)
    (h4 : off % 4 = 0) (hb : s.busy = false ∨ r.hazardWrite = false)
    (hi : s.inputs = .access (.write (s.params.base + off) .four v) :: rest)
    (hu : writeReg r v { s with inputs := rest } = u) : step s = .next { u with resp := some .written } := by
  rw [step_access hz hi, ← hu]
  exact hostAccess_writeReg (s := { s with inputs := rest }) hr ho h4 hb

/-- A read of a register of the table. -/
theorem step_read_of_lookup (hz : s.hazard = false) (hr : regTable.lookup off = some r)
    (hb : s.busy = false ∨ r.safeWhileBusy = true)
    (hi : s.inputs = .access (.read (s.params.base + off) .four) :: rest) :
    step s = .next { s with inputs := rest, resp := some (.value (readReg s r)) } := by
  obtain ⟨hr, ho, h4⟩ := regAt_of_lookup s.params hr
  exact step_readReg hz hr ho h4 hb hi

/-- A write of a register of the table. -/
theorem step_write_of_lookup {u : State} (hz : s.hazard = false) (hr : regTable.lookup off = some r)
    (hb : s.busy = false ∨ r.hazardWrite = false)
    (hi : s.inputs = .access (.write (s.params.base + off) .four v) :: rest)
    (hu : writeReg r v { s with inputs := rest } = u) : step s = .next { u with resp := some .written } := by
  obtain ⟨hr, ho, h4⟩ := regAt_of_lookup s.params hr
  exact step_writeReg hz hr ho h4 hb hi hu

/-- The registers a write of the host leaves alone (10_state.md R22, R31, R33–R39). -/
def Reg.readOnly : Reg → Bool
  | .id | .res0 | .res1 | .res2 | .res3 | .txLen | .txIf | .routeCount | .nodeCount | .cfg | .routeCap
  | .nodeCap => true
  | .ctrl | .status | .cmd | .arg0 | .arg1 | .arg2 | .arg3 | .rxLen | .ifIp _ | .ifMacLo _ | .ifMacHi _ => false

theorem writeReg_readOnly (v : Word) (s : State) (h : r.readOnly = true) : writeReg r v s = s := by
  cases r with
  | id | res0 | res1 | res2 | res3 | txLen | txIf | routeCount | nodeCount | cfg | routeCap | nodeCap => rfl
  | ctrl | status | cmd | arg0 | arg1 | arg2 | arg3 | rxLen | ifIp | ifMacLo | ifMacHi => cases h

theorem hazardWrite_readOnly (h : r.readOnly = true) : r.hazardWrite = false := by
  cases r with
  | id | res0 | res1 | res2 | res3 | txLen | txIf | routeCount | nodeCount | cfg | routeCap | nodeCap => rfl
  | ctrl | status | cmd | arg0 | arg1 | arg2 | arg3 | rxLen | ifIp | ifMacLo | ifMacHi => cases h

/-- A write of a read-only register is ignored, whatever BUSY is. -/
theorem step_write_readOnly (hz : s.hazard = false) (hr : regTable.lookup off = some r) (hro : r.readOnly = true)
    (hi : s.inputs = .access (.write (s.params.base + off) .four v) :: rest) :
    step s = .next { s with inputs := rest, resp := some .written } :=
  step_write_of_lookup hz hr (.inr (hazardWrite_readOnly hro)) hi (writeReg_readOnly _ _ hro)

/-- A write of STATUS clears what it names, whatever BUSY is. -/
theorem step_writeStatus (hz : s.hazard = false)
    (hi : s.inputs = .access (.write (s.params.base + 0x008) .four v) :: rest) :
    step s = .next { s with inputs := rest, resp := some .written, status := s.status.clearWritten v } :=
  step_write_of_lookup (r := .status) hz rfl (.inr rfl) hi rfl

/-! ### Operand registers: the ones whose write BUSY makes a hazard -/

/-- A write of an operand register writes operand registers only. -/
theorem writeReg_operand (v : Word) (s : State) (h : r.hazardWrite = true) :
    ∃ a0 a1 a2 a3 rx tab,
      writeReg r v s = { s with arg0 := a0, arg1 := a1, arg2 := a2, arg3 := a3, rxLen := rx, iftab := tab } := by
  cases r with
  | arg0 | arg1 | arg2 | arg3 | rxLen | ifIp k | ifMacLo k | ifMacHi k => exact ⟨_, _, _, _, _, _, rfl⟩
  | id | ctrl | status | cmd | res0 | res1 | res2 | res3 | txLen | txIf | routeCount | nodeCount | cfg | routeCap
  | nodeCap => cases h

/-- A write of an operand register does not look at the inputs. -/
theorem writeReg_operand_inputs (v : Word) (s : State) (l : List Input) (h : r.hazardWrite = true) :
    writeReg r v { s with inputs := l } = { writeReg r v s with inputs := l } := by
  cases r with
  | arg0 | arg1 | arg2 | arg3 | rxLen | ifIp k | ifMacLo k | ifMacHi k => rfl
  | id | ctrl | status | cmd | res0 | res1 | res2 | res3 | txLen | txIf | routeCount | nodeCount | cfg | routeCap
  | nodeCap => cases h

/-- On an idle engine an operand register takes what is written and answers it to the next read. -/
theorem step_write_then_read (hz : s.hazard = false) (hr : regAt s.params off = some r) (ho : off < 0x1000)
    (h4 : off % 4 = 0) (hb : s.busy = false) (hop : r.hazardWrite = true)
    (hi : s.inputs = .access (.write (s.params.base + off) .four v) ::
      .access (.read (s.params.base + off) .four) :: rest) :
    ∃ t u, step s = .next t ∧ step t = .next u ∧ u.resp = some (.value (readReg (writeReg r v s) r)) ∧
      t = { writeReg r v s with
        inputs := .access (.read (s.params.base + off) .four) :: rest
        resp := some .written } := by
  have hstep := step_writeReg hz hr ho h4 (.inl hb) hi (writeReg_operand_inputs v s _ hop)
  obtain ⟨a0, a1, a2, a3, rx, tab, e⟩ := writeReg_operand v s hop
  rw [e] at hstep ⊢
  exact ⟨_, _, hstep, step_readReg (r := r) hz hr ho h4 (.inl hb) rfl, rfl, rfl⟩

/-- The interface table after one entry is changed. -/
theorem getElem?_set_ifAt {k : Nat} {e : IfEntry} (k0 : Nat) (f : IfEntry → IfEntry) (h : s.iftab[k]? = some e) :
    (s.iftab.set k0 (f (ifAt s k0)))[k]? = some (if k0 = k then f e else e) := by
  rw [List.getElem?_set]
  by_cases hk : k0 = k
  · subst hk
    have hlt : k0 < s.iftab.length := (List.getElem?_eq_some_iff.mp h).1
    rw [if_pos rfl, if_pos hlt, if_pos rfl, ifAt, List.getD_eq_getElem?_getD, h, Option.getD_some]
  · rw [if_neg hk, if_neg hk, h]

/-- The entry that was set is the one a register of its slot reads. -/
theorem ifAt_set {k : Nat} (x : IfEntry) (h : k < s.iftab.length) : ifAt { s with iftab := s.iftab.set k x } k = x := by
  rw [ifAt, List.getD_eq_getElem?_getD, List.getElem?_set_self h, Option.getD_some]

/-! ### Register words as numbers -/

theorem toNat_ofNat_word {n : Nat} (h : n ≤ 2 ^ 32 - 1) : (BitVec.ofNat 32 n).toNat = n := by
  rw [BitVec.toNat_ofNat, Nat.mod_eq_of_lt (by omega)]

/-- A field placed above a word's bits adds its value. -/
theorem toNat_or_shiftLeft {w x : Word} {i : Nat} (hw : w.toNat < 2 ^ i) (hx : 2 ^ i * x.toNat < 2 ^ 32) :
    (w ||| x <<< i).toNat = w.toNat + 2 ^ i * x.toNat := by
  rw [BitVec.toNat_or, BitVec.toNat_shiftLeft, Nat.shiftLeft_eq, Nat.mul_comm x.toNat, Nat.mod_eq_of_lt hx, Nat.or_comm,
    ← Nat.two_pow_add_eq_or_of_lt hw, Nat.add_comm]

@[simp] theorem toNat_setWidth_ofBool (b : Bool) : ((BitVec.ofBool b).setWidth 32).toNat = b.toNat := by
  cases b <;> rfl

/-- A bit placed above a word's bits adds its value, and what results has one bit more. -/
theorem toNat_or_bitWord {w : Word} {i : Nat} (b : Bool) (hi : i < 32) (hw : w.toNat < 2 ^ i) :
    (w ||| bitWord b i).toNat = w.toNat + 2 ^ i * b.toNat ∧ w.toNat + 2 ^ i * b.toNat < 2 ^ (i + 1) := by
  have hb : 2 ^ i * b.toNat ≤ 2 ^ i := (Nat.mul_le_mul_left _ (Bool.toNat_le b)).trans_eq (Nat.mul_one _)
  have hpow : 2 ^ i < 2 ^ 32 := Nat.pow_lt_pow_right (by decide) hi
  refine ⟨?_, by rw [Nat.pow_succ]; omega⟩
  rw [bitWord, toNat_or_shiftLeft hw, toNat_setWidth_ofBool]
  rw [toNat_setWidth_ofBool]
  omega

/-- STATUS reads as the sum of its fields at R24's bits. -/
theorem toNat_statusWord (s : State) :
    (statusWord s).toNat = s.busy.toNat + 2 * s.status.done.toNat + 4 * s.status.err.toNat + 8 * s.status.found.toNat +
      16 * s.status.ovr.toNat + 256 * s.status.errCode.code.toNat := by
  have e0 : (bitWord s.busy 0).toNat = s.busy.toNat := by
    cases s.busy <;> rfl
  have h0 : (bitWord s.busy 0).toNat < 2 ^ 1 := e0 ▸ Bool.toNat_lt s.busy
  obtain ⟨e1, h1⟩ := toNat_or_bitWord (i := 1) s.status.done (by decide) h0
  rw [← e1] at h1
  obtain ⟨e2, h2⟩ := toNat_or_bitWord (i := 2) s.status.err (by decide) h1
  rw [← e2] at h2
  obtain ⟨e3, h3⟩ := toNat_or_bitWord (i := 3) s.status.found (by decide) h2
  rw [← e3] at h3
  obtain ⟨e4, h4⟩ := toNat_or_bitWord (i := 4) s.status.ovr (by decide) h3
  rw [← e4] at h4
  have hcode := s.status.errCode.code.isLt
  have ecode : (s.status.errCode.code.setWidth 32).toNat = s.status.errCode.code.toNat := by
    rw [BitVec.toNat_setWidth, Nat.mod_eq_of_lt (by omega)]
  rw [statusWord, toNat_or_shiftLeft (by omega) (by omega), ecode, e4, e3, e2, e1, e0]
  rfl

/-- CFG reads as P_NIF and P_DEPTH_EXTRA at R37's bits. -/
theorem toNat_cfgWord {p : Params} (h : p.legal) : (cfgWord p).toNat = p.nif + 256 * p.depthExtra.val := by
  obtain ⟨-, -, ⟨-, hnif⟩, -⟩ := h
  have enif : ((BitVec.ofNat 5 p.nif).setWidth 32).toNat = p.nif := by
    rw [BitVec.toNat_setWidth, BitVec.toNat_ofNat]
    omega
  have eextra : (p.depthExtra.val == 1).toNat = p.depthExtra.val := by
    generalize p.depthExtra = e
    revert e
    decide
  rw [cfgWord, (toNat_or_bitWord _ (by decide) (by omega)).1, enif, eextra]
  rfl

/-- A half-word register written with a word keeps its low 16 bits. -/
theorem setWidth_setWidth_eq_and (v : Word) : (v.setWidth 16).setWidth 32 = v &&& 0x0000FFFF#32 := by
  apply BitVec.eq_of_toNat_eq
  have hmask : (0x0000FFFF#32).toNat = 2 ^ 16 - 1 := rfl
  rw [BitVec.toNat_setWidth, BitVec.toNat_setWidth, BitVec.toNat_and, hmask, Nat.and_two_pow_sub_one_eq_mod]
  omega

end Sys2Proof.Machine
end

section
/-! The statements about single registers and accesses (spec/10_state.md section 2, R40;
70_reset_and_hazards.md R281). -/

namespace Sys2Proof.Proofs

open Sys2Proof Sys2Proof.Machine Sys2Proof.Safety Sys2Proof.Laws

/-- Settles O51: each constant register by its row of the register table. -/
theorem constantRegistersReadTheInstance : Obligations.ConstantRegistersReadTheInstance := by
  intro s v rest hz hlegal p hp
  have hrow {off : Nat} {r : Reg} {n : Nat} (hr : regTable.lookup off = some r) (hro : r.readOnly = true)
      (hsafe : r.safeWhileBusy = true) (hn : (readReg s r).toNat = n) :
      (s.inputs = .access (.read (s.params.base + off) .four) :: rest →
        ∃ x : Word, x.toNat = n ∧ step s = .next { s with inputs := rest, resp := some (.value x) }) ∧
      (s.inputs = .access (.write (s.params.base + off) .four v) :: rest →
        step s = .next { s with inputs := rest, resp := some .written }) :=
    ⟨fun hi => ⟨_, hn, step_read_of_lookup hz hr (.inr hsafe) hi⟩, step_write_readOnly hz hr hro⟩
  have hcfg := toNat_cfgWord hlegal
  obtain ⟨⟨-, hrc⟩, ⟨-, hnc⟩, -, -⟩ := hlegal
  simp only [List.mem_cons, List.not_mem_nil, or_false] at hp
  obtain rfl | rfl | rfl | rfl := hp
  · exact hrow (r := .id) rfl rfl rfl rfl
  · exact hrow (r := .cfg) rfl rfl rfl hcfg
  · exact hrow (r := .routeCap) rfl rfl rfl (toNat_ofNat_word (by omega))
  · exact hrow (r := .nodeCap) rfl rfl rfl (toNat_ofNat_word (by omega))

/-- Settles O60: each read-only register by its row of the register table; the capacities bound the counts. -/
theorem readOnlyRegistersReadTheirValues : Obligations.ReadOnlyRegistersReadTheirValues := by
  constructor
  · intro s rest hinv hz hp hr p hmem hi
    have hrow {r : Reg} (hl : regTable.lookup p.1 = some r) (hn : (readReg s r).toNat = p.2) :
        ∃ x : Word, x.toNat = p.2 ∧ step s = .next { s with inputs := rest, resp := some (.value x) } :=
      ⟨_, hn, step_read_of_lookup hz hl (.inl (busy_eq_false_iff.mpr ⟨hp, hr⟩)) hi⟩
    obtain ⟨⟨-, hrc⟩, ⟨-, hnc⟩, -, -⟩ := hinv.params
    have hroutes := hinv.routeCap
    have hnodes := hinv.nodeCap
    simp only [List.mem_cons, List.not_mem_nil, or_false] at hmem
    obtain rfl | rfl | rfl | rfl | rfl | rfl | rfl | rfl := hmem
    · exact hrow (r := .res0) rfl rfl
    · exact hrow (r := .res1) rfl rfl
    · exact hrow (r := .res2) rfl rfl
    · exact hrow (r := .res3) rfl rfl
    · exact hrow (r := .txLen) rfl (BitVec.toNat_setWidth_of_le (by decide))
    · exact hrow (r := .txIf) rfl (BitVec.toNat_setWidth_of_le (by decide))
    · exact hrow (r := .routeCount) rfl (toNat_ofNat_word (by omega))
    · exact hrow (r := .nodeCount) rfl (toNat_ofNat_word (by omega))
  · intro s v rest hz off hmem hi
    have hrows : ∀ off ∈ [0x020, 0x024, 0x028, 0x02C, 0x034, 0x038, 0x040, 0x044],
        ∃ r, regTable.lookup off = some r ∧ r.readOnly = true := by decide
    obtain ⟨r, hl, hro⟩ := hrows off hmem
    exact step_write_readOnly hz hl hro hi

/-- Settles O6: the placed word is pending, it decodes to its command, and the next input gives the turn. -/
theorem placedWordIsPerformedNext : Obligations.PlacedWordIsPerformedNext := by
  intro s i
  have hw : BitVec.ofNat 32 ((encode i).toNat % 2 ^ 32) = encode i := by
    rw [Nat.mod_eq_of_lt (encode i).isLt, BitVec.ofNat_toNat, BitVec.setWidth_eq]
  rw [State.withFetchWord, hw]
  exact (step_engine rfl rfl).trans (engineTurn_of_decode rfl rfl (decode_encode i))

/-- Settles O40: the write of CMD on an idle engine is acceptance. -/
theorem cmdWriteWhenIdleIsAccepted : Obligations.CmdWriteWhenIdleIsAccepted := by
  intro s w rest hz hp hr hi
  have hb : s.busy = false := busy_eq_false_iff.mpr ⟨hp, hr⟩
  exact step_write_of_lookup (r := .cmd) hz rfl (.inl hb) hi (writeCmd_of_idle w hb)

/-- Settles O42: the write of STATUS clears DONE and OVR where the word has a 1. -/
theorem statusWriteClearsOnlyDoneAndOvr : Obligations.StatusWriteClearsOnlyDoneAndOvr := by
  intro s w rest hz hi
  exact ⟨_, step_writeStatus hz hi, rfl, by simp, by simp⟩

/-- Settles O43: the write comes first, and the completion then sets DONE. -/
theorem completionWinsOverClearingDone : Obligations.CompletionWinsOverClearingDone := by
  intro s t w rest hr hp hi hrun
  obtain ⟨u, hu, hrun⟩ := run_succ_eq_next hrun
  obtain ⟨t', ht, hdone⟩ := run_succ_eq_next hrun
  cases hdone
  have hz : s.hazard = false := (step_eq_next hu).1
  cases (step_writeStatus hz hi).symm.trans hu
  exact done_of_step_engine ht rfl hr hp

/-- Settles O54: CTRL, STATUS and CMD by their rows of the register table. -/
theorem controlRegistersAreAlwaysReadable : Obligations.ControlRegistersAreAlwaysReadable := by
  intro s rest hz
  refine ⟨fun hi => ⟨_, step_read_of_lookup (r := .ctrl) hz rfl (.inr rfl) hi, ?_⟩,
    fun hi => ⟨_, step_read_of_lookup (r := .status) hz rfl (.inr rfl) hi, toNat_statusWord s⟩,
    fun hi => step_read_of_lookup (r := .cmd) hz rfl (.inr rfl) hi, fun v hv hi => ?_⟩
  · rw [readReg]
    cases s.irqEn <;> rfl
  · exact step_write_of_lookup (r := .ctrl) hz rfl (.inr rfl) hi (writeCtrl_of_bit0_clear hv _)

/-! ### Operand registers -/

/-- On an idle engine a write of `v` to the operand register at `off` is taken and answered to the next read: what O55
says of one offset. -/
def WritesAndReadsBack (s : State) (v : Word) (off : Nat) : Prop :=
  ∃ t u, step s = .next t ∧ step t = .next u ∧
    u.resp = some (.value (if off = 0x030 ∨ (0x100 ≤ off ∧ off % 16 = 8) then v &&& 0x0000FFFF#32 else v)) ∧
    t = { s with
      arg0 := if off = 0x010 then v else s.arg0
      arg1 := if off = 0x014 then v else s.arg1
      arg2 := if off = 0x018 then v else s.arg2
      arg3 := if off = 0x01C then v else s.arg3
      rxLen := if off = 0x030 then v.extractLsb' 0 16 else s.rxLen
      iftab := t.iftab
      inputs := t.inputs
      resp := some .written } ∧
    t.iftab.length = s.iftab.length ∧
    ∀ (k : Nat) (e : IfEntry), s.iftab[k]? = some e → t.iftab[k]? = some
      { ip := if off = 0x100 + 16 * k then v else e.ip
        macLo := if off = 0x104 + 16 * k then v else e.macLo
        macHi := if off = 0x108 + 16 * k then v.extractLsb' 0 16 else e.macHi }

section

variable {s : State} {v : Word} {off : Nat} {rest : List Input} (hz : s.hazard = false) (hb : s.busy = false)
  (hi : s.inputs = .access (.write (s.params.base + off) .four v) ::
    .access (.read (s.params.base + off) .four) :: rest)
include hz hb hi

/-- ARG0–ARG3 and RX_LEN: the interface table stays as it is. -/
theorem writesAndReadsBack_argument (hoff : off ∈ [0x010, 0x014, 0x018, 0x01C, 0x030]) :
    WritesAndReadsBack s v off := by
  have hrow {r : Reg} (hl : regTable.lookup off = some r) (hop : r.hazardWrite = true) := by
    obtain ⟨hr, ho, h4⟩ := regAt_of_lookup s.params hl
    exact step_write_then_read hz hr ho h4 hb hop hi
  simp only [List.mem_cons, List.not_mem_nil, or_false] at hoff
  have hslot (k c : Nat) (hc : 0x100 ≤ c) : off ≠ c + 16 * k := by omega
  have htab (k : Nat) (e : IfEntry) (he : s.iftab[k]? = some e) : s.iftab[k]? = some
      { ip := if off = 0x100 + 16 * k then v else e.ip
        macLo := if off = 0x104 + 16 * k then v else e.macLo
        macHi := if off = 0x108 + 16 * k then v.extractLsb' 0 16 else e.macHi } := by
    rw [if_neg (hslot k _ (by decide)), if_neg (hslot k _ (by decide)), if_neg (hslot k _ (by decide)), he]
  obtain rfl | rfl | rfl | rfl | rfl := hoff
  · obtain ⟨t, u, ht, hu, hresp, rfl⟩ := hrow (r := .arg0) rfl rfl
    exact ⟨_, u, ht, hu, hresp, rfl, rfl, htab⟩
  · obtain ⟨t, u, ht, hu, hresp, rfl⟩ := hrow (r := .arg1) rfl rfl
    exact ⟨_, u, ht, hu, hresp, rfl, rfl, htab⟩
  · obtain ⟨t, u, ht, hu, hresp, rfl⟩ := hrow (r := .arg2) rfl rfl
    exact ⟨_, u, ht, hu, hresp, rfl, rfl, htab⟩
  · obtain ⟨t, u, ht, hu, hresp, rfl⟩ := hrow (r := .arg3) rfl rfl
    exact ⟨_, u, ht, hu, hresp, rfl, rfl, htab⟩
  · obtain ⟨t, u, ht, hu, hresp, rfl⟩ := hrow (r := .rxLen) rfl rfl
    exact ⟨_, u, ht, hu, hresp.trans (by simp [readReg, writeReg, setWidth_setWidth_eq_and]), rfl, rfl, htab⟩

/-- A register of IFTAB: only the field it names, of its own entry, takes the value. -/
theorem writesAndReadsBack_iftab {k : Nat} (hk : k < s.params.nif) (h16 : k < 16) (hlen : s.iftab.length = s.params.nif)
    (hoff : off ∈ [0x100 + 16 * k, 0x104 + 16 * k, 0x108 + 16 * k]) : WritesAndReadsBack s v off := by
  obtain ⟨hip, hlo, hhi⟩ := regAt_iftab hk h16
  have hkl : k < s.iftab.length := hlen ▸ hk
  simp only [List.mem_cons, List.not_mem_nil, or_false] at hoff
  have hrow {r : Reg} (hat : regAt s.params off = some r) (hop : r.hazardWrite = true) :=
    step_write_then_read hz hat (by omega) (by omega) hb hop hi
  have hslot (c j : Nat) : c + 16 * k = c + 16 * j ↔ k = j := by omega
  have hne (c : Nat) (hc : c < 0x100) : off ≠ c := by omega
  have hframe (tab : List IfEntry) (l : List Input) :
      ({ s with iftab := tab, inputs := l, resp := some .written } : State) =
        { s with
          arg0 := if off = 0x010 then v else s.arg0
          arg1 := if off = 0x014 then v else s.arg1
          arg2 := if off = 0x018 then v else s.arg2
          arg3 := if off = 0x01C then v else s.arg3
          rxLen := if off = 0x030 then v.extractLsb' 0 16 else s.rxLen
          iftab := tab
          inputs := l
          resp := some .written } := by
    rw [if_neg (hne 0x010 (by decide)), if_neg (hne 0x014 (by decide)), if_neg (hne 0x018 (by decide)),
      if_neg (hne 0x01C (by decide)), if_neg (hne 0x030 (by decide))]
  obtain rfl | rfl | rfl := hoff
  · obtain ⟨t, u, ht, hu, hresp, rfl⟩ := hrow hip rfl
    refine ⟨_, u, ht, hu, hresp.trans ?_, hframe _ _, List.length_set, fun j e he => ?_⟩
    · rw [if_neg (by omega), readReg, writeReg, ifAt_set _ hkl]
    · refine (getElem?_set_ifAt k (fun x => { x with ip := v }) he).trans ?_
      rw [if_neg (by omega : 0x100 + 16 * k ≠ 0x104 + 16 * j), if_neg (by omega : 0x100 + 16 * k ≠ 0x108 + 16 * j)]
      simp only [hslot]
      split <;> rfl
  · obtain ⟨t, u, ht, hu, hresp, rfl⟩ := hrow hlo rfl
    refine ⟨_, u, ht, hu, hresp.trans ?_, hframe _ _, List.length_set, fun j e he => ?_⟩
    · rw [if_neg (by omega), readReg, writeReg, ifAt_set _ hkl]
    · refine (getElem?_set_ifAt k (fun x => { x with macLo := v }) he).trans ?_
      rw [if_neg (by omega : 0x104 + 16 * k ≠ 0x100 + 16 * j), if_neg (by omega : 0x104 + 16 * k ≠ 0x108 + 16 * j)]
      simp only [hslot]
      split <;> rfl
  · obtain ⟨t, u, ht, hu, hresp, rfl⟩ := hrow hhi rfl
    refine ⟨_, u, ht, hu, hresp.trans ?_, hframe _ _, List.length_set, fun j e he => ?_⟩
    · rw [if_pos (by omega), readReg, writeReg, ifAt_set _ hkl, setWidth_setWidth_eq_and]
    · refine (getElem?_set_ifAt k (fun x => { x with macHi := v.setWidth 16 }) he).trans ?_
      rw [if_neg (by omega : 0x108 + 16 * k ≠ 0x100 + 16 * j), if_neg (by omega : 0x108 + 16 * k ≠ 0x104 + 16 * j)]
      simp only [hslot]
      split <;> rfl

end

/-- Settles O55: ARG0–ARG3 and RX_LEN by the register table, the IFTAB registers by their slot. -/
theorem operandRegistersReadBack : Obligations.OperandRegistersReadBack := by
  intro s v off rest hz hp hr hlen hoff hi
  have hb : s.busy = false := busy_eq_false_iff.mpr ⟨hp, hr⟩
  obtain hoff | ⟨k, hk, h16, hoff⟩ := hoff
  · exact writesAndReadsBack_argument hz hb hi hoff
  · exact writesAndReadsBack_iftab hz hb hi hk h16 hlen hoff

end Sys2Proof.Proofs
end

section
/-! SUPPORT. A command completes or stops on a byte without a value (spec/20_memory.md R63): writes give bytes values and
take none away, so a byte that stops a later read of the command had no value when the command began. -/

namespace Sys2Proof.Machine

/-- The outcome `r` is a next state, or the stop on a byte that has no value in `s`. -/
def CompletesOrLacksByte (s : State) (r : Result) : Prop :=
  (∃ t, r = .next t) ∨ ∃ a, r = .fault (.unwrittenByte a) ∧ s.fmem.readByte a = none

/-- A byte that has no value after a write had none before it. -/
theorem readByte_eq_none_of_setMem {a x : Nat} {bs : List Byte} {s : State}
    (h : (setMem a bs s).fmem.readByte x = none) : s.fmem.readByte x = none := by
  rw [setMem_fmem, Memory.readByte_write] at h
  split at h
  · have := List.getElem?_eq_none_iff.mp h
    omega
  · exact h

namespace CompletesOrLacksByte

variable {s : State}

theorem next (t : State) : CompletesOrLacksByte s (.next t) := .inl ⟨t, rfl⟩

/-- What holds of the state after a write holds of the state before it. -/
theorem of_setMem {a : Nat} {bs : List Byte} {r : Result} (h : CompletesOrLacksByte (setMem a bs s) r) :
    CompletesOrLacksByte s r :=
  h.imp_right fun ⟨x, hr, hx⟩ => ⟨x, hr, readByte_eq_none_of_setMem hx⟩

/-- A read of the state's own memory stops on a byte it lacks, or goes on. -/
theorem of_reading {a n : Nat} {k : List Byte → Result} (h : ∀ bs, CompletesOrLacksByte s (k bs)) :
    CompletesOrLacksByte s (reading s.fmem a n k) := by
  obtain ⟨bs, -, -, e⟩ | ⟨x, -, -, hx, e⟩ := reading_cases s.fmem a n k
  · exact e ▸ h bs
  · exact .inr ⟨x, e, hx⟩

end CompletesOrLacksByte

/-! ### The checks -/

section

variable {s : State} {c : Check} {a : Nat}

theorem of_checkRxLen_unwritten {least : Nat} (h : checkRxLen least s c = .unwritten a) : c = .unwritten a := by
  unfold checkRxLen at h
  split_ifs at h
  exact h

theorem of_checkIfid_unwritten {k : Byte} (h : checkIfid k s c = .unwritten a) : c = .unwritten a := by
  unfold checkIfid at h
  split_ifs at h
  exact h

theorem of_checkRange_unwritten (h : checkRange s c = .unwritten a) : c = .unwritten a := by
  unfold checkRange at h
  split_ifs at h
  exact h

theorem of_checkField_unwritten (h : checkField s c = .unwritten a) : c = .unwritten a := by
  unfold checkField at h
  split_ifs at h
  exact h

theorem checkCapacity_ne_unwritten : checkCapacity s ≠ .unwritten a := by
  unfold checkCapacity
  split_ifs <;> exact Check.noConfusion

theorem of_checkTotlen_unwritten (h : checkTotlen s = .unwritten a) : s.fmem.readByte a = none := by
  unfold checkTotlen at h
  split at h
  · next x hx =>
    cases h
    obtain ⟨-, -, hnone⟩ := Memory.read_eq_error hx
    exact hnone
  · split_ifs at h

/-- Only the total length of ICMP_ECHO_REPLY is read by a check (60_exceptions.md R235). -/
theorem readByte_eq_none_of_firstError {i : Instr} (h : firstError i s = .unwritten a) : s.fmem.readByte a = none := by
  cases i with
  | lpmInsert => exact absurd h checkCapacity_ne_unwritten
  | lpmLookup => cases h
  | csum => cases of_checkRange_unwritten h
  | csumFill => cases of_checkField_unwritten (of_checkRange_unwritten h)
  | icmpEchoReply => exact of_checkTotlen_unwritten (of_checkRxLen_unwritten h)
  | icmpDestUnreach k | icmpTimeExceeded k => cases of_checkRxLen_unwritten (of_checkIfid_unwritten h)
  | arpRequest k => cases of_checkIfid_unwritten h
  | arpReply k => cases of_checkRxLen_unwritten (of_checkIfid_unwritten h)

end

/-! ### The commands -/

/-- The ICMP error builder reads the received frame, and then what it has written itself. -/
theorem buildIcmpError_completesOrLacksByte (type k : Byte) (s : State) :
    CompletesOrLacksByte s (buildIcmpError type k s) := by
  refine .of_reading fun smac => .of_reading fun orig => .of_reading fun osrc => ?_
  refine .of_setMem (.of_setMem (.of_setMem (.of_setMem (.of_setMem (.of_setMem (.of_reading fun ipHeader => ?_))))))
  exact .of_setMem (.of_setMem (.of_setMem (.of_reading fun icmp => .next _)))

/-- A command that passes its checks completes, or stops on a byte that had no value when it began. -/
theorem exec_completesOrLacksByte_of_pass {i : Instr} {s : State} (hc : firstError i s = .pass) :
    CompletesOrLacksByte s (exec i s) := by
  cases i with
  | lpmInsert =>
    rw [exec_lpmInsert_of_pass hc]
    exact .next _
  | lpmLookup =>
    rw [exec_lpmLookup]
    exact .next _
  | csum =>
    rw [exec_csum_of_pass hc]
    exact .of_reading fun bs => .next _
  | csumFill =>
    rw [exec_csumFill_of_pass hc]
    exact .of_setMem (.of_reading fun bs => .next _)
  | icmpEchoReply =>
    rw [exec, execIcmpEchoReply, performing_of_pass _ hc]
    refine .of_reading fun tl => .of_setMem (.of_reading fun src => .of_reading fun dst => ?_)
    exact .of_setMem (.of_setMem (.of_setMem (.of_reading fun msg => .next _)))
  | icmpDestUnreach k =>
    rw [exec_icmpDestUnreach_of_pass hc]
    exact buildIcmpError_completesOrLacksByte _ k s
  | icmpTimeExceeded k =>
    rw [exec_icmpTimeExceeded_of_pass hc]
    exact buildIcmpError_completesOrLacksByte _ k s
  | arpRequest k =>
    rw [exec_arpRequest_of_pass hc]
    exact .next _
  | arpReply k =>
    rw [exec_arpReply_of_pass hc]
    exact .of_reading fun rmac => .of_reading fun rsha => .of_reading fun rspa => .next _

/-- No command refuses, and each stops only on a byte that had no value when it began. -/
theorem exec_completesOrLacksByte (i : Instr) (s : State) : CompletesOrLacksByte s (exec i s) := by
  cases hc : firstError i s with
  | pass => exact exec_completesOrLacksByte_of_pass hc
  | error e =>
    rw [exec_of_error hc]
    exact .next _
  | unwritten a => exact .inr ⟨a, exec_of_unwritten hc, readByte_eq_none_of_firstError hc⟩

end Sys2Proof.Machine
end

section
/-! SUPPORT. One access of the window as one step: illegal ones, reserved offsets, and frame memory
(spec/20_memory.md R64–R68). -/

namespace Sys2Proof.Machine

open Sys2Proof.Safety

variable {s : State} {rest : List Input} {off : Nat}

/-! ### Legal and illegal accesses -/

/-- Which accesses are legal: aligned 4-byte ones of the register area, aligned ones of frame memory. -/
theorem legalAccess_iff {w : Width} :
    legalAccess off w = true ↔ (off < 0x1000 ∧ w = .four ∧ off % 4 = 0) ∨ (0x1000 ≤ off ∧ off % w.bytes = 0) := by
  unfold legalAccess
  split
  · next h => simp [h, Nat.not_le.mpr h]
  · next h => simp [h, Nat.not_lt.mp h]

/-- An illegal access in the window is a fault of the host. -/
theorem hostAccess_of_illegal {acc : Access} (ha : acc.addr = s.params.base + off) (ho : off < 0x2000)
    (hl : legalAccess off acc.width = false) : hostAccess acc s = .fault (.busError acc.addr) := by
  rw [hostAccess, ha, windowOffset_base_add ho]
  exact if_neg (by simp [hl])

/-! ### Reserved offsets -/

/-- Offsets below the interface table that are no register's, beyond the last one or in the gap before it. -/
theorem lookup_regTable_eq_none (h : off = 0x03C ∨ 0x054 ≤ off) : regTable.lookup off = none := by
  have htable : ∀ p ∈ regTable, p.1 ≠ 0x03C ∧ p.1 < 0x054 := by decide
  refine List.lookup_eq_none_iff.mpr fun p hp => ?_
  obtain ⟨hgap, hlt⟩ := htable p hp
  exact bne_iff_ne.mpr (by omega)

/-- No register lies in a slot of an absent interface, or at the fourth word of a slot (10_state.md R40). -/
theorem ifRegAt_eq_none {p : Params} (h : p.nif ≤ (off - 0x100) / 16 ∨ off % 16 = 12) : ifRegAt p off = none := by
  unfold ifRegAt
  obtain h | h := h
  · simp [Nat.not_lt.mpr h]
  · simp [h]

/-- A read of an offset with no register answers 0, whatever BUSY is. -/
theorem step_read_reserved (hz : s.hazard = false) (hr : regAt s.params off = none) (ho : off < 0x1000)
    (h4 : off % 4 = 0) (hi : s.inputs = .access (.read (s.params.base + off) .four) :: rest) :
    step s = .next { s with inputs := rest, resp := some (.value 0#32) } := by
  rw [step_access hz hi, hostAccess_of_legal rfl (by omega) (legalAccess_iff.mpr (.inl ⟨ho, rfl, h4⟩)), performAccess,
    hostRead, if_pos ho, hr]
  rfl

/-- A write of an offset with no register changes nothing, whatever BUSY is. -/
theorem step_write_reserved {v : Word} (hz : s.hazard = false) (hr : regAt s.params off = none) (ho : off < 0x1000)
    (h4 : off % 4 = 0) (hi : s.inputs = .access (.write (s.params.base + off) .four v) :: rest) :
    step s = .next { s with inputs := rest, resp := some .written } := by
  rw [step_access hz hi, hostAccess_of_legal rfl (by omega) (legalAccess_iff.mpr (.inl ⟨ho, rfl, h4⟩)), performAccess,
    hostWrite, if_pos ho, hr]

/-! ### Frame memory -/

section

variable {a : Nat} {w : Width} {v : Word}

/-- A host read of a sequence that memory holds draws none of its bytes. -/
theorem fmemBytes_of_hasBytes {bs : List Byte} (h : HasBytes s.fmem a bs) : fmemBytes s a bs.length = bs := by
  refine List.ext_getElem (by simp [fmemBytes]) fun j hj hj' => ?_
  simp [fmemBytes, h j bs[j] (List.getElem?_eq_getElem hj')]

/-- An access of frame memory at a multiple of its width is legal: the area starts at a multiple of every width. -/
theorem legalAccess_fmem (hw : a % w.bytes = 0) : legalAccess (0x1000 + a) w = true := by
  refine legalAccess_iff.mpr (.inr ⟨Nat.le_add_right _ _, ?_⟩)
  cases w <;> simp only [Width.bytes] at hw ⊢ <;> omega

section

variable (hz : s.hazard = false) (hb : s.busy = false) (ha : a < 0x1000) (hw : a % w.bytes = 0)
include hz hb ha hw

/-- A legal write of an idle engine's frame memory stores the written bytes. -/
theorem step_write_fmem (hi : s.inputs = .access (.write (s.params.base + 0x1000 + a) w v) :: rest) :
    step s = .next { setMem a (writtenBytes v w.bytes) s with inputs := rest, resp := some .written } := by
  have hidle : ¬ State.busy { s with inputs := rest } = true := ne_true_of_eq_false hb
  rw [step_access hz hi, hostAccess_of_legal (Nat.add_assoc _ _ _) (by omega) (legalAccess_fmem hw), performAccess,
    hostWrite, if_neg (by omega), if_neg hidle, Nat.add_sub_cancel_left]
  rfl

/-- A legal read of an idle engine's frame memory answers the bytes memory holds there, lowest first. -/
theorem step_read_fmem {bs : List Byte} (hl : bs.length = w.bytes) (hbs : HasBytes s.fmem a bs)
    (hi : s.inputs = .access (.read (s.params.base + 0x1000 + a) w) :: rest) :
    step s = .next { s with inputs := rest, resp := some (.value (raw bs)), draws := s.draws + w.bytes } := by
  have hidle : ¬ State.busy { s with inputs := rest } = true := ne_true_of_eq_false hb
  rw [step_access hz hi, hostAccess_of_legal (Nat.add_assoc _ _ _) (by omega) (legalAccess_fmem hw), performAccess,
    hostRead, if_neg (by omega), if_neg hidle, Nat.add_sub_cancel_left, ← hl,
    fmemBytes_of_hasBytes (s := { s with inputs := rest }) hbs]
  rfl

end

/-- The bytes of a write are the value's, lowest first (20_memory.md R67). -/
theorem getElem?_writtenBytes {j : Nat} (hj : j < w.bytes) :
    (writtenBytes v w.bytes)[j]? = some (v.extractLsb' (8 * j) 8) := by
  have hj4 : j < 4 := by cases w <;> simp only [Width.bytes] at hj <;> omega
  rw [writtenBytes, List.getElem?_take_of_lt hj]
  interval_cases j <;> rfl

/-- The bytes of a write, read back, are the low part of the value. -/
theorem raw_writtenBytes (v : Word) (w : Width) :
    raw (writtenBytes v w.bytes) = BitVec.ofNat 32 (v.toNat % 2 ^ (8 * w.bytes)) := by
  rw [raw]
  congr 1
  cases w <;> simp [writtenBytes, wire, Width.bytes, leNat, BitVec.extractLsb'_toNat, Nat.shiftRight_eq_div_pow] <;>
    omega

end

end Sys2Proof.Machine
end

section
/-! The statements about frame memory and the window (spec/20_memory.md sections 1 and 2). -/

namespace Sys2Proof.Proofs

open Sys2Proof Sys2Proof.Machine Sys2Proof.Safety

/-- Settles O39: the checks and the effects stop only on bytes that had no value when the command began, and CSUM reads
its whole range. -/
theorem commandsStopOnlyOnValuelessBytes : Obligations.CommandsStopOnlyOnValuelessBytes := by
  refine ⟨exec_completesOrLacksByte, fun s hrange ⟨j, hj, hnone⟩ => ?_⟩
  rw [exec_csum_of_pass (checkRange_of_le _ hrange)]
  exact reading_of_none _ (by omega) hnone

/-- Settles O48: the write stores the value's bytes, and the read finds all of them. -/
theorem frameMemoryIsLittleEndian : Obligations.FrameMemoryIsLittleEndian := by
  intro s a w v rest hz hp hr ha hw hi
  have hb : s.busy = false := busy_eq_false_iff.mpr ⟨hp, hr⟩
  have hheld := hasBytes_setMem a (writtenBytes v w.bytes) s
  have hread := step_read_fmem (s := { setMem a (writtenBytes v w.bytes) s with
    inputs := .access (.read (s.params.base + 0x1000 + a) w) :: rest
    resp := some .written }) hz hb ha hw (writtenBytes_length v w) hheld rfl
  rw [raw_writtenBytes] at hread
  refine ⟨_, _, step_write_fmem hz hb ha hw hi, hread, rfl, fun j hj => hheld j _ (getElem?_writtenBytes hj),
    fun x hx => ?_, rfl, rfl⟩
  exact setMem_readByte_outside (by rwa [writtenBytes_length])

/-- Settles O49: the two cases are the illegal and the legal accesses. -/
theorem illegalAccessIsABusError : Obligations.IllegalAccessIsABusError := by
  intro s acc rest off hz ho ha hi
  rw [step_access hz hi]
  refine ⟨fun h => hostAccess_of_illegal ha ho (Bool.eq_false_iff.mpr fun hl => ?_),
    fun h => ⟨_, hostAccess_of_legal ha ho (legalAccess_iff.mpr h)⟩⟩
  obtain ⟨hlow, hw, h4⟩ | ⟨hhigh, hal⟩ := legalAccess_iff.mp hl
  · obtain ⟨-, hw' | h4'⟩ | ⟨hhigh, -⟩ := h
    · exact hw' hw
    · exact h4' h4
    · omega
  · obtain ⟨hlow, -⟩ | ⟨-, hal'⟩ := h
    · omega
    · exact hal' hal

/-- Settles O50: no register lies at a reserved offset. -/
theorem reservedOffsetsReadZeroAndIgnoreWrites : Obligations.ReservedOffsetsReadZeroAndIgnoreWrites := by
  intro s off v rest hz h4 hoff
  have ho : off < 0x1000 := by omega
  have hr : regAt s.params off = none := by
    unfold regAt
    split
    · exact ifRegAt_eq_none (by omega)
    · exact lookup_regTable_eq_none (by omega)
  exact ⟨step_read_reserved hz hr ho h4, step_write_reserved hz hr ho h4⟩

/-- Settles O53: a read that completes is a legal one, which answers and may use up free bytes. -/
theorem readsHaveNoSideEffect : Obligations.ReadsHaveNoSideEffect := by
  intro s t addr w rest hi ht
  obtain ⟨hz, -⟩ := step_eq_next ht
  rw [step_access hz hi] at ht
  obtain ⟨off, -, -, rfl⟩ := hostAccess_eq_next ht
  obtain ⟨v, d, e⟩ := hostRead_cases off w { s with inputs := rest }
  rw [performAccess, e]
  exact ⟨rfl, v, rfl⟩

end Sys2Proof.Proofs
end

section
/-! SUPPORT. Which words a command is decoded from: by the three fields, by R95's mask and match, and by R93's legality
(spec/30_encoding.md sections 1 and 2). -/

namespace Sys2Proof.Laws

/-! ### Words and their fields -/

/-- A word decodes to a command exactly when it is that command's word. -/
theorem decode_eq_ok_iff {w : Word} {i : Instr} : decode w = .ok i ↔ w = encode i :=
  ⟨fun h => (encode_of_decode h).symm, fun h => h ▸ decode_encode i⟩

/-- A command word is known by its three fields. -/
theorem eq_commandWord_iff {w : Word} {k op : Byte} :
    w = commandWord k op ↔ rsvdField w = 0#16 ∧ ifidField w = k ∧ opcodeField w = op := by
  constructor
  · rintro rfl
    exact ⟨rsvdField_commandWord k op, ifidField_commandWord k op, opcodeField_commandWord k op⟩
  · rintro ⟨hr, rfl, rfl⟩
    exact (commandWord_fields hr).symm

/-! ### R95's mask -/

/-- R95's mask of the opcodes that use IFID keeps RSVD. -/
theorem rsvdField_and_mask (w : Word) : rsvdField (w &&& 0xFFFF00FF#32) = rsvdField w := by
  rw [rsvdField, BitVec.extractLsb'_and]
  exact BitVec.and_allOnes

/-- R95's mask of the opcodes that use IFID clears IFID. -/
theorem ifidField_and_mask (w : Word) : ifidField (w &&& 0xFFFF00FF#32) = 0#8 := by
  rw [ifidField, BitVec.extractLsb'_and]
  exact BitVec.and_zero

/-- R95's mask of the opcodes that use IFID keeps OPCODE. -/
theorem opcodeField_and_mask (w : Word) : opcodeField (w &&& 0xFFFF00FF#32) = opcodeField w := by
  rw [opcodeField, BitVec.extractLsb'_and]
  exact BitVec.and_allOnes

/-- R95's mask leaves the word with IFID 0 exactly of the words with that OPCODE, and IFID is what it drops. -/
theorem eq_commandWord_iff_mask {w : Word} {k op : Byte} :
    w = commandWord k op ↔ w &&& 0xFFFF00FF#32 = commandWord 0#8 op ∧ k = ifidField w := by
  rw [eq_commandWord_iff, eq_commandWord_iff, rsvdField_and_mask, ifidField_and_mask, opcodeField_and_mask]
  constructor
  · rintro ⟨hr, hk, hop⟩
    exact ⟨⟨hr, rfl, hop⟩, hk.symm⟩
  · rintro ⟨⟨hr, -, hop⟩, hk⟩
    exact ⟨hr, hk.symm, hop⟩

/-! ### Legal words -/

/-- The word of every command is legal. -/
theorem legal_encode (i : Instr) : CommandWord.legal (encode i) = true := by
  cases i with
  | lpmInsert => exact EncodeLegal.lpmInsert
  | lpmLookup => exact EncodeLegal.lpmLookup
  | csum => exact EncodeLegal.csum
  | csumFill => exact EncodeLegal.csumFill
  | icmpEchoReply => exact EncodeLegal.icmpEchoReply
  | icmpDestUnreach k => exact EncodeLegal.icmpDestUnreach k
  | icmpTimeExceeded k => exact EncodeLegal.icmpTimeExceeded k
  | arpRequest k => exact EncodeLegal.arpRequest k
  | arpReply k => exact EncodeLegal.arpReply k

/-- Fields that R93 allows are the fields of a command. -/
theorem exists_encode_of_legal {k op : Byte} (h : CommandWord.legal (commandWord k op) = true) :
    ∃ i, encode i = commandWord k op := by
  rw [legal_commandWord, Bool.and_eq_true, Bool.or_eq_true, beq_iff_eq] at h
  obtain ⟨hop, hk⟩ := h
  have hplain {j : Instr} (hj : encode j = commandWord 0#8 op)
      (hno : [0x21#8, 0x22#8, 0x30#8, 0x31#8].contains op = false) : ∃ i, encode i = commandWord k op := by
    obtain hk | rfl := hk
    · exact absurd (hno ▸ hk) Bool.false_ne_true
    · exact ⟨j, hj⟩
  simp only [List.contains_cons, List.contains_nil, Bool.or_false, Bool.or_eq_true, beq_iff_eq] at hop
  obtain rfl | rfl | rfl | rfl | rfl | rfl | rfl | rfl | rfl := hop
  · exact hplain (j := .lpmInsert) rfl rfl
  · exact hplain (j := .lpmLookup) rfl rfl
  · exact hplain (j := .csum) rfl rfl
  · exact hplain (j := .csumFill) rfl rfl
  · exact hplain (j := .icmpEchoReply) rfl rfl
  · exact ⟨.icmpDestUnreach k, rfl⟩
  · exact ⟨.icmpTimeExceeded k, rfl⟩
  · exact ⟨.arpRequest k, rfl⟩
  · exact ⟨.arpReply k, rfl⟩

/-- The words that decode are the legal ones (30_encoding.md R93). -/
theorem decodes_iff_legal (w : Word) : (∃ i, decode w = .ok i) ↔ CommandWord.legal w = true := by
  constructor
  · rintro ⟨i, hi⟩
    rw [decode_eq_ok_iff.mp hi]
    exact legal_encode i
  · intro h
    have hr : rsvdField w = 0#16 := by
      rw [CommandWord.legal, Bool.and_eq_true, Bool.and_eq_true] at h
      obtain ⟨⟨-, hr⟩, -⟩ := h
      exact beq_iff_eq.mp hr
    rw [← commandWord_fields hr] at h ⊢
    obtain ⟨i, hi⟩ := exists_encode_of_legal h
    exact ⟨i, decode_eq_ok_iff.mpr hi.symm⟩

end Sys2Proof.Laws
end

section
/-! SUPPORT. The turn of a pending word that is not legal, and one poll of `WAIT` (spec/30_encoding.md R94, R100, R102). -/

namespace Sys2Proof.Machine

open Sys2Proof.Safety Sys2Proof.Laws

/-- A pending command whose word is not legal completes with ILLEGAL at the sequencer's turn. -/
theorem engineTurn_of_illegal {s : State} (hr : s.resetting = false) (hp : s.pending = true)
    (hl : CommandWord.legal s.cmd = false) : engineTurn s = .next (errorState .illegal s) := by
  obtain ⟨hr', -⟩ | ⟨hr', -⟩ | ⟨-, hp', -⟩ | ⟨-, -, ⟨x, -, e⟩ | ⟨i, hd, -⟩⟩ := engineTurn_cases s
  · simp [hr] at hr'
  · simp [hr] at hr'
  · simp [hp] at hp'
  · exact e
  · simp [(decodes_iff_legal s.cmd).mp ⟨i, hd⟩] at hl

/-- Bit 0 of STATUS is BUSY (10_state.md R24). -/
theorem statusWord_getLsbD_zero (s : State) : (statusWord s).getLsbD 0 = s.busy := by
  simp [statusWord, bitWord]

/-- One poll of `WAIT` answers STATUS, and polls again after the sequencer's turn while BUSY = 1. -/
theorem hostWait_eq (s : State) :
    hostWait s = { s with
      resp := some (.value (statusWord s))
      inputs := if s.busy then .engine :: .wait :: s.inputs else s.inputs } := by
  unfold hostWait
  split <;> rfl

end Sys2Proof.Machine
end

section
/-! The statements about command words and about the sequencer's turn (spec/30_encoding.md sections 1 to 4). -/

namespace Sys2Proof.Proofs

open Sys2Proof Sys2Proof.Machine Sys2Proof.Safety Sys2Proof.Laws

/-- Settles O2: decoding and encoding undo each other. -/
theorem decodeAndEncodeAgree : Obligations.DecodeAndEncodeAgree :=
  ⟨decode_encode, fun _ _ => encode_of_decode⟩

/-- Settles O3: the mask of the five opcodes without IFID leaves the whole word, which is the command's one word; the
mask of the other four leaves RSVD and OPCODE. -/
theorem decodeByMaskAndMatch : Obligations.DecodeByMaskAndMatch := by
  intro w
  have hplain {i : Instr} {m : Word} (hm : encode i = m) : decode w = .ok i ↔ w &&& 0xFFFFFFFF#32 = m := by
    have hall : w &&& 0xFFFFFFFF#32 = w := BitVec.and_allOnes
    rw [decode_eq_ok_iff, hall, hm]
  have hifid {i : Instr} {k op : Byte} {m : Word} (hi : encode i = commandWord k op) (hm : commandWord 0#8 op = m) :
      decode w = .ok i ↔ w &&& 0xFFFF00FF#32 = m ∧ k = w.extractLsb' 8 8 := by
    rw [decode_eq_ok_iff, hi, eq_commandWord_iff_mask, hm, ifidField]
  exact ⟨hplain rfl, hplain rfl, hplain rfl, hplain rfl, hplain rfl, fun k => hifid rfl rfl, fun k => hifid rfl rfl,
    fun k => hifid rfl rfl, fun k => hifid rfl rfl⟩

/-- Settles O4: legality is decodability, and a word that does not decode is reported at the sequencer's turn. -/
theorem illegalWordOnlyReportsIllegal : Obligations.IllegalWordOnlyReportsIllegal := by
  refine ⟨decodes_iff_legal, fun s hz hr hp hl => ⟨fun hi => ?_, fun rest hi => ?_⟩⟩
  · exact (step_nil hz hi).trans (engineTurn_of_illegal hr hp hl)
  · exact (step_engine hz hi).trans (engineTurn_of_illegal hr hp hl)

/-- Settles O1: nine of the words are the words of their commands, and the other three fail one check each. -/
theorem commandWordsDecode : Obligations.CommandWordsDecode :=
  ⟨decode_encode .lpmInsert, decode_encode .lpmLookup, decode_encode .csum, decode_encode .csumFill,
    decode_encode .icmpEchoReply, decode_encode (.icmpDestUnreach 1#8), decode_encode (.icmpTimeExceeded 3#8),
    decode_encode (.arpRequest 0#8), decode_encode (.arpReply 255#8), by decide, by decide, by decide⟩

/-- Settles O5: either way the step is the sequencer's turn, which performs the command. -/
theorem stepPerformsPendingCommand : Obligations.StepPerformsPendingCommand := by
  intro s i hz hr hp hd
  refine ⟨fun hi => ?_, fun rest hi => ?_⟩
  · exact (step_nil hz hi).trans (engineTurn_of_decode hr hp hd)
  · exact (step_engine hz hi).trans (engineTurn_of_decode hr hp hd)

/-- Settles O56: the word polled is STATUS, whose bit 0 is BUSY. -/
theorem waitPollsUntilNotBusy : Obligations.WaitPollsUntilNotBusy := by
  intro s rest hz hi
  have hbit : (statusWord s).getLsbD 0 = s.busy := statusWord_getLsbD_zero s
  refine ⟨_, statusWord s, (step_wait hz hi).trans (congrArg _ (hostWait_eq _)), rfl, by rw [hbit], ?_⟩
  rw [hbit]
  rfl

end Sys2Proof.Proofs
end

section
/-! SUPPORT. The mask length as a run of bits, and how far a path is present (spec/40_lpm_trie.md R121, R125). -/

namespace Sys2Proof.Machine

open Sys2Proof.Safety

/-! ### Mask length -/

/-- R121's loop stops after a run of set bits, at its fuel or at a clear bit. -/
theorem mlenFrom_run (m : Word) (l fuel : Nat) :
    (∀ i, l ≤ i → i < mlenFrom m l fuel → m.getLsbD i = true) ∧
    (mlenFrom m l fuel < l + fuel → m.getLsbD (mlenFrom m l fuel) = false) := by
  induction fuel generalizing l with
  | zero => exact ⟨fun i h1 h2 => absurd h2 (Nat.not_lt.mpr h1), fun h => absurd h (Nat.lt_irrefl l)⟩
  | succ fuel ih =>
    rw [mlenFrom]
    split
    · next hl =>
      obtain ⟨hrun, hstop⟩ := ih (l + 1)
      refine ⟨fun i h1 h2 => ?_, fun h => hstop (by omega)⟩
      obtain rfl | h1 := Nat.eq_or_lt_of_le h1
      · exact hl
      · exact hrun i h1 h2
    · next hl => exact ⟨fun i h1 h2 => absurd h2 (Nat.not_lt.mpr h1), fun _ => by simpa using hl⟩

theorem kbit_of_lt {v : Word} {i : Nat} (h : i < 32) : kbit v i = v.getLsbD i := by rw [kbit, Nat.mod_eq_of_lt h]

/-! ### How far a path is present -/

theorem presentFrom_le (nodes : List Node) (p : Word) (i fuel n : Nat) : presentFrom nodes p i fuel n ≤ fuel := by
  induction fuel generalizing i n with
  | zero => exact le_rfl
  | succ fuel ih =>
    cases hc : childOf nodes n (kbit p i) with
    | none => simp only [presentFrom, hc, Nat.zero_le]
    | some c => simpa only [presentFrom, hc] using Nat.succ_le_succ (ih (i + 1) c)

/-- A path can be followed exactly as far as its nodes are present. -/
theorem isSome_follow_iff {nodes : List Node} {p : Word} {i fuel n k : Nat} (hk : k ≤ fuel) :
    (follow nodes p i k n).isSome ↔ k ≤ presentFrom nodes p i fuel n := by
  induction fuel generalizing i n k with
  | zero =>
    obtain rfl := Nat.le_zero.mp hk
    exact ⟨fun _ => le_rfl, fun _ => rfl⟩
  | succ fuel ih =>
    cases k with
    | zero => exact ⟨fun _ => Nat.zero_le _, fun _ => rfl⟩
    | succ k =>
      cases hc : childOf nodes n (kbit p i) with
      | none => simp [follow_succ_of_none hc, presentFrom, hc]
      | some c =>
        rw [follow_succ_of_some hc, ih (Nat.le_of_succ_le_succ hk)]
        simp only [presentFrom, hc, Nat.succ_le_succ_iff]

theorem need_le (nodes : List Node) (p : Word) (d : Nat) : need nodes p d ≤ d := Nat.sub_le _ _

theorem insertPath_length (nodes : List Node) (p : Word) (d : Nat) :
    (insertPath nodes p d).nodes.length = nodes.length + need nodes p d :=
  (insertWalk_length p 0 d nodes 0 0).trans (by rw [← insertPath_created]; rfl)

/-! ### Following a path -/

/-- The last link of a path. -/
theorem follow_succ_eq_some {nodes : List Node} {p : Word} {i fuel n m : Nat}
    (h : follow nodes p i (fuel + 1) n = some m) :
    ∃ k, follow nodes p i fuel n = some k ∧ childOf nodes k (kbit p (i + fuel)) = some m := by
  have hsome : (follow nodes p i fuel n).isSome := by
    rw [isSome_follow_iff (Nat.le_succ fuel)]
    exact Nat.le_of_succ_le ((isSome_follow_iff le_rfl).mp (by rw [h, Option.isSome_some]))
  obtain ⟨k, hk⟩ := Option.isSome_iff_exists.mp hsome
  exact ⟨k, hk, follow_concat hk ▸ h⟩

/-- Words that agree at every position walked lead along the same path. -/
theorem follow_congr {nodes : List Node} {p q : Word} {i fuel : Nat} (n : Nat)
    (h : ∀ j < fuel, kbit p (i + j) = kbit q (i + j)) : follow nodes p i fuel n = follow nodes q i fuel n := by
  induction fuel generalizing i n with
  | zero => rfl
  | succ fuel ih =>
    have hnext (c : Nat) : follow nodes p (i + 1) fuel c = follow nodes q (i + 1) fuel c :=
      ih c fun j hj => by simpa only [Nat.add_assoc, Nat.add_comm 1] using h (j + 1) (Nat.succ_lt_succ hj)
    have hbit : kbit p i = kbit q i := h 0 (Nat.succ_pos fuel)
    simp only [follow, hbit, hnext]

end Sys2Proof.Machine
end

section
/-! SUPPORT. Paths in a tree of nodes (spec/40_lpm_trie.md R124, R127): a node is reached along one path only, and an
insertion's walk ends where its path leads. -/

namespace Sys2Proof.Safety

open Sys2Proof.Machine

/-! ### One path to each node -/

/-- In a tree two paths from the root reach one node only when they have one length and the same bits. -/
theorem IsTree.follow_inj {d : Nat} {nodes : List Node} (h : IsTree d nodes) {p q : Word} {j k n : Nat}
    (hp : follow nodes p 0 j 0 = some n) (hq : follow nodes q 0 k 0 = some n) :
    j = k ∧ ∀ i < j, kbit p i = kbit q i := by
  induction j generalizing k n with
  | zero =>
    cases k with
    | zero => exact ⟨rfl, fun i hi => absurd hi (Nat.not_lt_zero i)⟩
    | succ k =>
      obtain ⟨m, -, hm⟩ := follow_succ_eq_some hq
      exact absurd (hm.trans hp.symm) (h.noLinkToRoot _ _)
  | succ j ih =>
    obtain ⟨m, hm, hmn⟩ := follow_succ_eq_some hp
    cases k with
    | zero => exact absurd (hmn.trans hq.symm) (h.noLinkToRoot _ _)
    | succ k =>
      obtain ⟨m', hm', hmn'⟩ := follow_succ_eq_some hq
      have hpos : 0 < n := Nat.pos_of_ne_zero fun h0 => h.noLinkToRoot _ _ (h0 ▸ hmn)
      have hlink : (m, kbit p (0 + j)) = (m', kbit q (0 + k)) :=
        (h.oneParent n hpos (h.inside _ _ _ hmn).2).unique hmn hmn'
      obtain ⟨rfl, hbit⟩ := Prod.mk.inj hlink
      obtain ⟨rfl, hbits⟩ := ih hm hm'
      rw [Nat.zero_add] at hbit
      refine ⟨rfl, fun i hi => ?_⟩
      obtain rfl | hi := Nat.eq_or_lt_of_le (Nat.le_of_lt_succ hi)
      · exact hbit
      · exact hbits i hi

/-! ### Where a route is stored -/

/-- The walk of an insertion ends where its path leads in the store it leaves. -/
theorem follow_insertWalk {nodes : List Node} {p : Word} {i fuel n : Nat} (created : Nat)
    (hin : ∀ m b c, childOf nodes m b = some c → c < nodes.length) (hn : n < nodes.length) :
    follow (insertWalk p i fuel nodes n created).nodes p i fuel n =
        some (insertWalk p i fuel nodes n created).node ∧
      (insertWalk p i fuel nodes n created).node < (insertWalk p i fuel nodes n created).nodes.length := by
  induction fuel generalizing i nodes n created with
  | zero => exact ⟨rfl, hn⟩
  | succ fuel ih =>
    cases hc : childOf nodes n (kbit p i) with
    | some c =>
      rw [insertWalk_succ_of_some hc, follow_succ_of_some (childOf_insertWalk hc)]
      exact ih created hin (hin _ _ _ hc)
    | none =>
      have hnew : childOf (addChild nodes n (kbit p i)) n (kbit p i) = some nodes.length := by
        rw [childOf_addChild, if_pos ⟨rfl, rfl, hn⟩]
      have hin' (m : Nat) (b : Bool) (c : Nat) (hm : childOf (addChild nodes n (kbit p i)) m b = some c) :
          c < (addChild nodes n (kbit p i)).length := by
        rw [addChild_length]
        obtain ⟨-, -, -, rfl⟩ | hm := childOf_addChild_eq_some hm
        · exact Nat.lt_succ_self _
        · exact Nat.lt_succ_of_lt (hin _ _ _ hm)
      rw [insertWalk_succ_of_none hc, follow_succ_of_some (childOf_insertWalk hnew)]
      exact ih (created + 1) hin' (by simp)

variable {d : Nat} {nodes : List Node}

/-- Storing a route puts it at the node its path leads to. -/
theorem IsTree.follow_storeRoute (h : IsTree d nodes) (p : Word) (k r : Nat) :
    follow (Machine.storeRoute nodes p k r) p 0 k 0 = some (insertPath nodes p k).node :=
  follow_mono (fun _ _ _ hc => (childOf_setRoute ..).trans hc)
    (follow_insertWalk 0 (fun m b c hm => (h.inside m b c hm).2) h.root).1

/-- Storing a route sets the route of its node and of no other. -/
theorem IsTree.nodeAt_route_storeRoute (h : IsTree d nodes) (p : Word) (k r m : Nat) :
    (nodeAt (Machine.storeRoute nodes p k r) m).route =
      if m = (insertPath nodes p k).node then some r else (nodeAt nodes m).route := by
  have hlt : (insertPath nodes p k).node < (insertPath nodes p k).nodes.length :=
    (follow_insertWalk 0 (fun m b c hm => (h.inside m b c hm).2) h.root).2
  rw [Machine.storeRoute, nodeAt_route_setRoute, insertPath, nodeAt_route_insertWalk]
  simp only [eq_comm (a := m), insertPath] at hlt ⊢
  simp only [hlt, and_true]

end Sys2Proof.Safety
end

section
/-! SUPPORT. The routes in the nodes: which node a stored route's path leads to and which route a node holds
(spec/40_lpm_trie.md R127, R134). -/

namespace Sys2Proof.Safety

open Sys2Proof.Machine

variable {extra : Fin 2} {routes : List RouteEntry} {e f : RouteEntry} {n q r : Nat}

/-- The route at an index of a store with one more route at the end. -/
theorem getElem?_concat_eq_some :
    (routes ++ [e])[r]? = some f ↔ routes[r]? = some f ∨ (r = routes.length ∧ e = f) := by
  obtain h | h := Nat.lt_or_ge r routes.length
  · rw [List.getElem?_append_left h, or_iff_left fun h' => h.ne h'.1]
  · rw [List.getElem?_append_right h, List.getElem?_singleton, List.getElem?_eq_none h]
    simp [show r - routes.length = 0 ↔ r = routes.length by omega]

/-- The path of the route with index `r` leads to node `n`. -/
def Reaches (extra : Fin 2) (routes : List RouteEntry) (r n : Nat) : Prop :=
  ∃ e, routes[r]? = some e ∧ follow (build extra routes) e.pfx 0 (depth extra e.mask) 0 = some n

/-- The node at which the route `e` is stored, after the routes before it. -/
def nodeFor (extra : Fin 2) (routes : List RouteEntry) (e : RouteEntry) : Nat :=
  (insertPath (build extra routes) e.pfx (depth extra e.mask)).node

theorem follow_build_concat {p : Word} {k : Nat} (e : RouteEntry) (h : follow (build extra routes) p 0 k 0 = some n) :
    follow (build extra (routes ++ [e])) p 0 k 0 = some n := by
  rw [build_concat]
  exact follow_mono (fun _ _ _ => childOf_storeRoute _ _ _) h

theorem follow_build_nodeFor (extra : Fin 2) (routes : List RouteEntry) (e : RouteEntry) :
    follow (build extra (routes ++ [e])) e.pfx 0 (depth extra e.mask) 0 = some (nodeFor extra routes e) := by
  rw [build_concat]
  exact (isTree_build extra routes).follow_storeRoute _ _ _

/-- Every stored route's path stands. -/
theorem follow_build (h : routes[r]? = some e) :
    ∃ n, follow (build extra routes) e.pfx 0 (depth extra e.mask) 0 = some n := by
  induction routes using List.reverseRecOn with
  | nil => cases h
  | append_singleton routes e' ih =>
    obtain h | ⟨-, rfl⟩ := getElem?_concat_eq_some.mp h
    · obtain ⟨n, hn⟩ := ih h
      exact ⟨n, follow_build_concat e' hn⟩
    · exact ⟨_, follow_build_nodeFor extra routes e'⟩

/-- Two routes' paths lead to one node exactly when they are the same path. -/
theorem follow_build_eq_iff {m : Nat} (hn : follow (build extra routes) e.pfx 0 (depth extra e.mask) 0 = some n)
    (hm : follow (build extra routes) f.pfx 0 (depth extra f.mask) 0 = some m) : n = m ↔ SamePath extra e f := by
  constructor
  · rintro rfl
    exact (isTree_build extra routes).follow_inj hn hm
  · rintro ⟨hd, hbits⟩
    rw [follow_congr 0 (by simpa only [Nat.zero_add] using hbits), hd, hm] at hn
    exact (Option.some.inj hn).symm

theorem live_concat_length (extra : Fin 2) (routes : List RouteEntry) (e : RouteEntry) :
    Live extra (routes ++ [e]) routes.length :=
  ⟨e, by simp, fun q f hq hf => by
    have := (List.getElem?_eq_some_iff.mp hf).1
    rw [List.length_append, List.length_singleton] at this
    omega⟩

/-- An earlier route stays live exactly when the route that is appended has another path. -/
theorem live_concat_iff (h : routes[r]? = some f) :
    Live extra (routes ++ [e]) r ↔ Live extra routes r ∧ ¬ SamePath extra f e := by
  have hr : r < routes.length := (List.getElem?_eq_some_iff.mp h).1
  constructor
  · rintro ⟨f', hf', hlast⟩
    obtain rfl : f = f' := Option.some.inj ((getElem?_concat_eq_some.mpr (.inl h)).symm.trans hf')
    exact ⟨⟨f, h, fun q g hq hg => hlast q g hq (getElem?_concat_eq_some.mpr (.inl hg))⟩,
      hlast _ e hr (by simp)⟩
  · rintro ⟨⟨f', hf', hlast⟩, hne⟩
    obtain rfl : f = f' := Option.some.inj (h.symm.trans hf')
    refine ⟨f, getElem?_concat_eq_some.mpr (.inl h), fun q g hq hg => ?_⟩
    obtain hg | ⟨-, rfl⟩ := getElem?_concat_eq_some.mp hg
    · exact hlast q g hq hg
    · exact hne

/-- A node holds exactly the live route whose path leads to it. -/
theorem nodeAt_route_build_iff :
    (nodeAt (build extra routes) n).route = some r ↔ Live extra routes r ∧ Reaches extra routes r n := by
  induction routes using List.reverseRecOn generalizing n r with
  | nil =>
    constructor
    · intro h
      exact absurd (nodeAt_route_build_lt h) (Nat.not_lt_zero r)
    · rintro ⟨⟨e, he, -⟩, -⟩
      cases he
  | append_singleton routes e ih =>
    have hnew := follow_build_nodeFor extra routes e
    have hroute : (nodeAt (build extra (routes ++ [e])) n).route =
        if n = nodeFor extra routes e then some routes.length else (nodeAt (build extra routes) n).route := by
      rw [build_concat]
      exact (isTree_build extra routes).nodeAt_route_storeRoute _ _ _ _
    rw [hroute]
    split
    · next hn =>
      subst hn
      constructor
      · intro h
        cases h
        exact ⟨live_concat_length extra routes e, e, by simp, hnew⟩
      · rintro ⟨hlive, f, hf, hfn⟩
        obtain hf | ⟨rfl, -⟩ := getElem?_concat_eq_some.mp hf
        · exact absurd ((follow_build_eq_iff hfn hnew).mp rfl) ((live_concat_iff hf).mp hlive).2
        · rfl
    · next hn =>
      rw [ih]
      constructor
      · rintro ⟨hlive, f, hf, hfn⟩
        have hfn := follow_build_concat e hfn
        have hne : ¬ SamePath extra f e := fun hp => hn ((follow_build_eq_iff hfn hnew).mpr hp)
        exact ⟨(live_concat_iff hf).mpr ⟨hlive, hne⟩, f, getElem?_concat_eq_some.mpr (.inl hf), hfn⟩
      · rintro ⟨hlive, f, hf, hfn⟩
        obtain hf | ⟨-, rfl⟩ := getElem?_concat_eq_some.mp hf
        · obtain ⟨m, hm⟩ := follow_build (extra := extra) hf
          obtain rfl : m = n := Option.some.inj ((follow_build_concat e hm).symm.trans hfn)
          exact ⟨((live_concat_iff hf).mp hlive).1, f, hf, hm⟩
        · exact absurd (Option.some.inj (hfn.symm.trans hnew)) hn

/-- Every route brings at most `32 + P_DEPTH_EXTRA` nodes. -/
theorem length_build_le (extra : Fin 2) (routes : List RouteEntry) :
    (build extra routes).length ≤ 1 + (32 + extra.val) * routes.length := by
  induction routes using List.reverseRecOn with
  | nil => exact le_rfl
  | append_singleton routes e ih =>
    have hneed := (need_le (build extra routes) e.pfx _).trans (depth_le extra e.mask)
    rw [build_concat, storeRoute_length, List.length_append, List.length_singleton, Nat.mul_succ]
    omega

end Sys2Proof.Safety
end

section
/-! SUPPORT. The walk of a lookup (spec/40_lpm_trie.md R130, R132, R134): it selects the greatest raw mask among the
routes of the nodes on the address's path, and those are the candidates. -/

namespace Sys2Proof.Safety

open Sys2Proof.Machine

/-- `best` is the selection among the routes with the property `P`: none when there are none, else one of the greatest
raw mask. -/
def Selects (routes : List RouteEntry) (P : Nat → Prop) : Option Nat → Prop
  | none => ∀ q, ¬ P q
  | some b => P b ∧ ∀ q, P q → routeMask routes q ≤ routeMask routes b

/-- A node at most `fuel` positions from node `n` along the address `a` holds the route `q`. -/
def OnPath (nodes : List Node) (a : Word) (i fuel n q : Nat) : Prop :=
  ∃ k ≤ fuel, ∃ m, follow nodes a i k n = some m ∧ (nodeAt nodes m).route = some q

variable {nodes : List Node} {routes : List RouteEntry} {a : Word} {i fuel n q : Nat}

theorem Selects.congr {P Q : Nat → Prop} {best : Option Nat} (h : Selects routes P best) (hPQ : ∀ q, Q q ↔ P q) :
    Selects routes Q best := by rwa [funext fun q => propext (hPQ q)]

theorem onPath_zero : OnPath nodes a i 0 n q ↔ (nodeAt nodes n).route = some q := by
  simp [OnPath, follow]

/-- A path goes on through the child, if there is one. -/
theorem onPath_succ :
    OnPath nodes a i (fuel + 1) n q ↔
      (nodeAt nodes n).route = some q ∨
        ∃ c, childOf nodes n (kbit a i) = some c ∧ OnPath nodes a (i + 1) fuel c q := by
  constructor
  · rintro ⟨k, hk, m, hm, hq⟩
    cases k with
    | zero =>
      cases hm
      exact .inl hq
    | succ k =>
      cases hc : childOf nodes n (kbit a i) with
      | none =>
        rw [follow_succ_of_none hc] at hm
        cases hm
      | some c =>
        rw [follow_succ_of_some hc] at hm
        exact .inr ⟨c, rfl, k, Nat.le_of_succ_le_succ hk, m, hm, hq⟩
  · rintro (hq | ⟨c, hc, k, hk, m, hm, hq⟩)
    · exact ⟨0, Nat.zero_le _, n, rfl, hq⟩
    · exact ⟨k + 1, Nat.succ_le_succ hk, m, (follow_succ_of_some hc).trans hm, hq⟩

/-- Considering a node selects among its route too. -/
theorem Selects.consider {P : Nat → Prop} {best : Option Nat} (h : Selects routes P best) (n : Nat) :
    Selects routes (fun q => P q ∨ (nodeAt nodes n).route = some q) (consider nodes routes n best) := by
  cases hr : (nodeAt nodes n).route with
  | none =>
    simp only [Machine.consider, hr]
    exact h.congr fun q => by simp
  | some r =>
    have hbound {x : Nat} (hP : ∀ q, P q → routeMask routes q ≤ routeMask routes x)
        (hx : routeMask routes r ≤ routeMask routes x) (q : Nat) (hq : P q ∨ some r = some q) :
        routeMask routes q ≤ routeMask routes x :=
      hq.elim (hP q) fun e => Option.some.inj e ▸ hx
    cases best with
    | none =>
      simp only [Machine.consider, hr]
      exact ⟨.inr rfl, hbound (fun q hq => absurd hq (h q)) (BitVec.le_refl _)⟩
    | some b =>
      obtain ⟨hb, hmax⟩ := h
      simp only [Machine.consider, hr]
      split
      · next hlt =>
        exact ⟨.inr rfl, hbound (fun q hq => BitVec.le_trans (hmax q hq) (BitVec.le_of_lt hlt)) (BitVec.le_refl _)⟩
      · next hle => exact ⟨.inl hb, hbound hmax (BitVec.not_lt.mp hle)⟩

/-- The walk of a lookup selects among the routes met before and those on the path. -/
theorem Selects.lookupWalk {P : Nat → Prop} {best : Option Nat} (h : Selects routes P best) (a : Word)
    (i fuel n : Nat) :
    Selects routes (fun q => P q ∨ OnPath nodes a i fuel n q)
      (lookupWalk nodes routes a i fuel n (Machine.consider nodes routes n best)) := by
  induction fuel generalizing i n best P with
  | zero => exact (h.consider n).congr fun q => or_congr_right onPath_zero
  | succ fuel ih =>
    cases hc : childOf nodes n (kbit a i) with
    | none =>
      rw [lookupWalk_succ_of_none hc]
      exact (h.consider n).congr fun q => by simp [onPath_succ, hc]
    | some c =>
      rw [lookupWalk_succ_of_some hc]
      exact (ih (h.consider n) (i + 1) c).congr fun q => by simp [onPath_succ, hc, or_assoc]

/-- The routes on an address's path are the candidates of R134. -/
theorem onPath_build_iff {extra : Fin 2} : OnPath (build extra routes) a 0 32 0 q ↔ Candidate extra routes a q := by
  constructor
  · rintro ⟨k, hk, m, hm, hq⟩
    obtain ⟨hlive, e, he, hem⟩ := nodeAt_route_build_iff.mp hq
    obtain ⟨rfl, hbits⟩ := (isTree_build extra routes).follow_inj hm hem
    exact ⟨hlive, e, he, hk, hbits⟩
  · rintro ⟨hlive, e, he, hd, hbits⟩
    obtain ⟨m, hm⟩ := follow_build (extra := extra) he
    refine ⟨_, hd, m, ?_, nodeAt_route_build_iff.mpr ⟨hlive, e, he, hm⟩⟩
    rwa [follow_congr 0 (by simpa only [Nat.zero_add] using hbits)]

/-- A lookup selects among the candidates. -/
theorem selects_lookupBest (extra : Fin 2) (routes : List RouteEntry) (a : Word) :
    Selects routes (Candidate extra routes a) (lookupBest (build extra routes) routes a) := by
  have hempty : Selects routes (fun _ => False) none := fun _ => id
  exact (hempty.lookupWalk a 0 32 0).congr fun q => by rw [onPath_build_iff, false_or]

theorem routeMask_of_getElem? {r : Nat} {e : RouteEntry} (h : routes[r]? = some e) : routeMask routes r = e.mask := by
  rw [routeMask, h]
  rfl

/-- Candidates with one raw mask have one path, so that the earlier would not be live (R134). -/
theorem Candidate.eq_of_mask_eq {extra : Fin 2} {q r : Nat} {f e : RouteEntry} (hq : Candidate extra routes a q)
    (hr : Candidate extra routes a r) (hf : routes[q]? = some f) (he : routes[r]? = some e) (h : f.mask = e.mask) :
    q = r := by
  obtain ⟨⟨f₁, hf₁, hlastq⟩, f₂, hf₂, -, hbitsq⟩ := hq
  obtain ⟨⟨e₁, he₁, hlastr⟩, e₂, he₂, -, hbitsr⟩ := hr
  obtain rfl : f = f₁ := Option.some.inj (hf.symm.trans hf₁)
  obtain rfl : f = f₂ := Option.some.inj (hf.symm.trans hf₂)
  obtain rfl : e = e₁ := Option.some.inj (he.symm.trans he₁)
  obtain rfl : e = e₂ := Option.some.inj (he.symm.trans he₂)
  have hd : depth extra f.mask = depth extra e.mask := by rw [h]
  obtain hlt | rfl | hlt := lt_trichotomy q r
  · exact absurd ⟨hd, fun i hi => (hbitsq i hi).symm.trans (hbitsr i (hd ▸ hi))⟩ (hlastq r e hlt he)
  · rfl
  · exact absurd ⟨hd.symm, fun i hi => (hbitsr i hi).symm.trans (hbitsq i (hd ▸ hi))⟩ (hlastr q f hlt hf)

end Sys2Proof.Safety
end

section
/-! SUPPORT. The trie commands: when LPM_INSERT fits and what it then does, and the words a hit leaves in RES3
(spec/40_lpm_trie.md R124, R128, R131). -/

namespace Sys2Proof.Machine

open Sys2Proof.Safety

variable {s : State}

theorem exec_lpmInsert_of_routeFull (h : s.routes.length = s.params.routeCap) :
    exec .lpmInsert s = .next (errorState .routeFull s) := by
  refine exec_of_error ?_
  rw [firstError, checkCapacity, if_pos h]

theorem exec_lpmInsert_of_nodeFull (hr : s.routes.length ≠ s.params.routeCap)
    (hn : s.params.nodeCap < s.nodes.length + need s.nodes s.arg0 (depth s.params.depthExtra s.arg1)) :
    exec .lpmInsert s = .next (errorState .nodeFull s) := by
  refine exec_of_error ?_
  rw [firstError, checkCapacity, if_neg hr, if_pos hn]

/-- An insertion that fits stores its route and reports the index and the number of nodes created. -/
theorem exec_lpmInsert_of_fits (hr : s.routes.length ≠ s.params.routeCap)
    (hn : s.nodes.length + need s.nodes s.arg0 (depth s.params.depthExtra s.arg1) ≤ s.params.nodeCap) :
    exec .lpmInsert s = .next (completeOk (setRes (BitVec.ofNat 32 s.routes.length)
      (BitVec.ofNat 32 (need s.nodes s.arg0 (depth s.params.depthExtra s.arg1))) 0#32 0#32 (insertRoute s))) := by
  have hpass : firstError .lpmInsert s = .pass := by
    rw [firstError, checkCapacity, if_neg hr, if_neg (Nat.not_lt.mpr hn)]
  rw [exec_lpmInsert_of_pass hpass, performLpmInsert, insertPath_created]
  rfl

/-- RES3 of a hit holds the egress interface in its low byte and the route index above it. -/
theorem hitRes3_fields {best : Nat} (h : best < 2 ^ 24) (egress : Byte) :
    (hitRes3 best egress).extractLsb' 0 8 = egress ∧ ((hitRes3 best egress).extractLsb' 8 24).toNat = best := by
  have hword : (hitRes3 best egress).toNat = egress.toNat + 2 ^ 8 * best := by
    have hbest : (BitVec.ofNat 32 best).toNat = best := toNat_ofNat_word (by omega)
    have hegress : (egress.setWidth 32).toNat = egress.toNat := BitVec.toNat_setWidth_of_le (by decide)
    rw [hitRes3, BitVec.or_comm, toNat_or_shiftLeft (hegress ▸ egress.isLt) (by omega), hegress, hbest]
  have hlt := egress.isLt
  constructor
  · apply BitVec.eq_of_toNat_eq
    rw [BitVec.extractLsb'_toNat, hword, Nat.shiftRight_zero]
    omega
  · rw [BitVec.extractLsb'_toNat, hword, Nat.shiftRight_eq_div_pow]
    omega

/-- The raw values of the dotted masks rise with their length. -/
theorem dottedMask_lt_iff {n k : Nat} (hn : n ≤ 32) (hk : k ≤ 32) : dottedMask n < dottedMask k ↔ n < k := by
  have hsucc : ∀ m < 32, (dottedMask m).toNat < (dottedMask (m + 1)).toNat := by decide
  have hmono : StrictMonoOn (fun m => (dottedMask m).toNat) (Set.Iic 32) := strictMonoOn_Iic_of_lt_succ hsucc
  exact BitVec.lt_def.trans (hmono.lt_iff_lt hn hk)

end Sys2Proof.Machine
end

section
/-! The statements about the LPM trie (spec/40_lpm_trie.md). -/

namespace Sys2Proof.Proofs

open Sys2Proof Sys2Proof.Machine Sys2Proof.Safety

/-- Settles O8: the insertion's walk keeps every link and ends at the node whose route is set. -/
theorem insertStoresRouteAtItsDepth : Obligations.InsertStoresRouteAtItsDepth := by
  intro s h hr hn
  have htree : IsTree (32 + s.params.depthExtra.val) s.nodes := h.trie ▸ isTree_build _ _
  have hlen := storeRoute_length s.nodes s.arg0 (depth s.params.depthExtra s.arg1) s.routes.length
  have hroute := htree.nodeAt_route_storeRoute s.arg0 (depth s.params.depthExtra s.arg1) s.routes.length
  have hexec := exec_lpmInsert_of_fits hr hn
  have hcreated : (insertRoute s).nodes.length - s.nodes.length =
      need s.nodes s.arg0 (depth s.params.depthExtra s.arg1) := by
    rw [insertRoute, hlen, Nat.add_sub_cancel_left]
  exact ⟨_, (insertPath s.nodes s.arg0 (depth s.params.depthExtra s.arg1)).node, hexec, rfl,
    htree.follow_storeRoute _ _ _, (hroute _).trans (if_pos rfl), fun m hm => (hroute m).trans (if_neg hm),
    fun m b c => childOf_storeRoute _ _ _, hlen, ⟨rfl, congrArg (BitVec.ofNat 32) hcreated.symm, rfl, rfl⟩,
    ⟨rfl, rfl, rfl, rfl, rfl⟩, commandsNeverWriteOperands _ _ _ hexec, fun _ => rfl, rfl, rfl⟩

/-- Settles O9: a walk creates what is not present, and the depth present is how far the path can be followed. -/
theorem insertCreatesExactlyNeed : Obligations.InsertCreatesExactlyNeed := by
  refine ⟨fun nodes p d => ⟨need_le nodes p d, fun k hk => ?_, insertPath_created nodes p d,
    insertPath_length nodes p d⟩, fun s t ht herr => ?_⟩
  · rw [need, Nat.sub_sub_self (presentFrom_le nodes p 0 d 0)]
    exact isSome_follow_iff hk
  · obtain ⟨e, -, rfl⟩ | ⟨u, rfl, -, rfl⟩ := exec_eq_next ht
    · cases herr
    · exact ⟨rfl, storeRoute_length _ _ _ _⟩

/-- Settles O11: the paths of stored routes stand, in a tree, and a node holds the live route of its path. -/
theorem sameNodeExactlyOnSamePath : Obligations.SameNodeExactlyOnSamePath := by
  intro s h r q e f he hf
  rw [h.trie]
  obtain ⟨n, hn⟩ := follow_build (extra := s.params.depthExtra) he
  obtain ⟨m, hm⟩ := follow_build (extra := s.params.depthExtra) hf
  refine ⟨n, m, hn, hm, follow_build_eq_iff hn hm, ?_⟩
  rw [nodeAt_route_build_iff]
  exact and_iff_left ⟨e, he, hn⟩

/-- Settles O12: the walk selects among the candidates, whose raw masks differ. -/
theorem lookupReturnsGreatestLiveMatch : Obligations.LookupReturnsGreatestLiveMatch := by
  intro s h
  have hsel := selects_lookupBest s.params.depthExtra s.routes s.arg0
  rw [← h.trie] at hsel
  refine ⟨_, exec_lpmLookup s, rfl, ?_⟩
  obtain ⟨r, e, hbest, he, hres⟩ | ⟨hno, hres⟩ := lookupResult_cases s
  · rw [hbest] at hsel
    obtain ⟨hcand, hmax⟩ := hsel
    have hr : r < 2 ^ 24 :=
      (List.getElem?_eq_some_iff.mp he).1.trans_le (h.routeCap.trans h.params.1.2)
    obtain ⟨hegress, hindex⟩ := hitRes3_fields hr e.egressIf
    rw [hres]
    refine .inl ⟨r, e, hcand, he, fun q f hq hf hne => ?_, rfl, rfl, rfl, rfl, hegress, hindex⟩
    have hle := hmax q hq
    rw [routeMask_of_getElem? hf, routeMask_of_getElem? he] at hle
    exact BitVec.lt_of_le_ne hle fun hmask => hne (hq.eq_of_mask_eq hcand hf he hmask)
  · rw [hres]
    refine .inr ⟨?_, rfl, rfl, rfl, rfl, rfl⟩
    cases hbest : lookupBest s.nodes s.routes s.arg0 with
    | none =>
      rw [hbest] at hsel
      exact hsel
    | some b =>
      rw [hbest] at hsel
      obtain ⟨-, e, he, -⟩ := hsel.1
      exact absurd he (hno b e hbest)

/-- Settles O14: a hit is a candidate, and at P_DEPTH_EXTRA = 1 its path is one position longer than its mask. -/
theorem extraDepthNeedsOneMoreBit : Obligations.ExtraDepthNeedsOneMoreBit := by
  intro s t h hextra ht hfound
  obtain ⟨t', ht', -, hcases⟩ := lookupReturnsGreatestLiveMatch s h
  obtain rfl : t = t' := Host.Outcome.next.inj (ht.symm.trans ht')
  obtain hit | ⟨-, hmiss, -⟩ := hcases
  · obtain ⟨r, e, ⟨-, e', he', hd, hbits⟩, he, -, -, hpfx, hmask, -⟩ := hit
    obtain rfl : e = e' := Option.some.inj (he.symm.trans he')
    have hdepth : depth s.params.depthExtra e.mask = mlen e.mask + 1 := by rw [hextra]; rfl
    rw [hdepth] at hd hbits
    rw [hmask, hpfx]
    refine ⟨Nat.le_of_succ_le_succ hd, fun i hi => ?_⟩
    have hi32 : i < 32 := hi.trans_lt hd
    rw [← kbit_of_lt hi32, ← kbit_of_lt hi32]
    exact hbits i (Nat.lt_succ_of_le hi)
  · rw [hmiss] at hfound
    cases hfound

/-- Settles O15: the loop stops at its bound or at the first clear bit. -/
theorem maskLengthCountsLowRun : Obligations.MaskLengthCountsLowRun := by
  refine ⟨fun m => ?_, by decide, by decide, by decide, by decide, by decide⟩
  obtain ⟨hrun, hstop⟩ := mlenFrom_run m 0 32
  exact ⟨mlen_le m, fun i hi => hrun i (Nat.zero_le i) hi, hstop⟩

/-- Settles O20: every route stored, and the one to store, needs at most 33 nodes. -/
theorem defaultNodeCapacityNeverFull : Obligations.DefaultNodeCapacityNeverFull := by
  intro s h hcap hexec
  by_cases hr : s.routes.length = s.params.routeCap
  · rw [exec_lpmInsert_of_routeFull hr] at hexec
    cases congrArg (fun t => t.status.errCode) (Host.Outcome.next.inj hexec)
  · have hextra : s.params.depthExtra.val ≤ 1 := Nat.le_of_lt_succ s.params.depthExtra.isLt
    have hlen : s.nodes.length ≤ 1 + 33 * s.routes.length := by
      rw [h.trie]
      exact (length_build_le _ _).trans (Nat.add_le_add_left (Nat.mul_le_mul_right _ (by omega)) 1)
    have hneed := (need_le s.nodes s.arg0 _).trans (depth_le s.params.depthExtra s.arg1)
    have hroutes := h.routeCap
    rw [exec_lpmInsert_of_fits hr (by omega)] at hexec
    cases congrArg (fun t => t.status.err) (Host.Outcome.next.inj hexec)

/-- Settles O10: the capacity checks in their order, each the whole of the command's effect. -/
theorem insertAtFullStoreChangesNothing : Obligations.InsertAtFullStoreChangesNothing :=
  fun _ => ⟨exec_lpmInsert_of_routeFull, exec_lpmInsert_of_nodeFull⟩

/-- Settles O13: a lookup has no check, and a hit and a miss write the same fields. -/
theorem lookupCompletesAndOnlyWritesResults : Obligations.LookupCompletesAndOnlyWritesResults := by
  intro s
  have hexec := exec_lpmLookup s
  obtain ⟨r, e, -, -, hres⟩ | ⟨-, hres⟩ := lookupResult_cases s <;> rw [hres] at hexec
  · exact ⟨_, hexec, rfl, rfl, rfl, rfl, fun hmiss => (by cases hmiss), commandsNeverWriteOperands _ _ _ hexec,
      ⟨rfl, rfl⟩, fun _ => rfl, rfl, rfl⟩
  · exact ⟨_, hexec, rfl, rfl, rfl, rfl, fun _ => ⟨rfl, rfl, rfl, rfl⟩, commandsNeverWriteOperands _ _ _ hexec,
      ⟨rfl, rfl⟩, fun _ => rfl, rfl, rfl⟩

/-- Settles O16: an octet of a dotted mask fills from its high end, so only full octets count from the low end. -/
theorem dottedMasksRoundToOctets : Obligations.DottedMasksRoundToOctets :=
  ⟨by decide, fun _ hn _ hk => dottedMask_lt_iff hn hk, by decide, by decide, by decide⟩

end Sys2Proof.Proofs
end

section
/-! SUPPORT. The one's-complement sum and its checksum as numbers (spec/41_checksum.md R160, R161, R165–R167). -/

namespace Sys2Proof.Machine

/-! ### The end-around carry -/

/-- R160's loop leaves a positive sum at the number of 1..0xFFFF that is congruent to it. -/
theorem foldCarry_eq {acc fuel : Nat} (h : acc ≤ fuel) :
    foldCarry acc fuel = if acc = 0 then 0 else (acc - 1) % 0xFFFF + 1 := by
  induction fuel generalizing acc with
  | zero => simp [foldCarry, Nat.le_zero.mp h]
  | succ fuel ih =>
    by_cases hle : acc ≤ 0xFFFF
    · rw [foldCarry_of_le _ hle]
      split <;> omega
    · obtain ⟨hlt, hpos, hmod⟩ := carry_lt_and_mod (acc := acc) (by omega)
      rw [foldCarry_of_gt _ (by omega), ih (by omega), if_neg (by omega), if_neg (by omega)]
      omega

theorem onesSum_eq (bs : List Byte) :
    onesSum bs = if wordSum bs = 0 then 0 else (wordSum bs - 1) % 0xFFFF + 1 := foldCarry_eq le_rfl

theorem onesSum_le (bs : List Byte) : onesSum bs ≤ 0xFFFF := by
  rw [onesSum_eq]
  split <;> omega

/-- Equal word sums give equal one's-complement sums. -/
theorem onesSum_congr {as bs : List Byte} (h : wordSum as = wordSum bs) : onesSum as = onesSum bs := by
  rw [onesSum, onesSum, h]

theorem onesSum_eq_zero_iff {bs : List Byte} : onesSum bs = 0 ↔ wordSum bs = 0 := by
  rw [onesSum_eq]
  split <;> simp_all

/-- The sum is the other zero, 0xFFFF, at the positive multiples of 0xFFFF. -/
theorem onesSum_eq_max_iff {bs : List Byte} : onesSum bs = 0xFFFF ↔ wordSum bs ≠ 0 ∧ wordSum bs % 0xFFFF = 0 := by
  rw [onesSum_eq]
  split <;> omega

/-! ### The checksum -/

theorem internetCsum_toNat (bs : List Byte) : (internetCsum bs).toNat = 0xFFFF - onesSum bs := by
  have hle := onesSum_le bs
  rw [internetCsum, BitVec.toNat_not, BitVec.toNat_ofNat, Nat.mod_eq_of_lt (by omega)]

theorem internetCsum_eq_zero_iff {bs : List Byte} : internetCsum bs = 0#16 ↔ onesSum bs = 0xFFFF := by
  have hle := onesSum_le bs
  rw [← BitVec.toNat_inj, internetCsum_toNat, BitVec.toNat_ofNat]
  omega

theorem zext32_eq_zero_iff {c : Half} : zext32 c = 0#32 ↔ c = 0#16 := by
  rw [zext32, ← BitVec.toNat_inj, ← BitVec.toNat_inj, BitVec.toNat_setWidth_of_le (by decide)]
  rfl

/-! ### Word sums of changed sequences -/

/-- A checksum stored high byte first is one word of its value. -/
@[simp] theorem wordSum_tobe16 (c : Half) : wordSum (tobe16 c) = c.toNat := by
  have hlt := c.isLt
  simp only [tobe16, wordSum_cons_cons, wordSum_nil, be16, BitVec.extractLsb'_toNat, Nat.shiftRight_eq_div_pow]
  omega

theorem be16_eq_zero_iff {h l : Byte} : be16 h l = 0 ↔ h = 0#8 ∧ l = 0#8 := by
  rw [be16, ← BitVec.toNat_inj, ← BitVec.toNat_inj, BitVec.toNat_ofNat]
  omega

theorem wordSum_eq_zero_iff (bs : List Byte) : wordSum bs = 0 ↔ ∀ b ∈ bs, b = 0#8 := by
  match bs with
  | [] => simp
  | [h] => simp only [wordSum_singleton, be16_eq_zero_iff, List.forall_mem_singleton, and_true]
  | h :: l :: rest =>
    simp only [wordSum_cons_cons, Nat.add_eq_zero_iff, be16_eq_zero_iff, wordSum_eq_zero_iff rest,
      List.forall_mem_cons, and_assoc]

/-- Another byte in the place of one changes the sum by their difference, times 256 at an even distance from the
start. -/
theorem wordSum_replace_byte (pre post : List Byte) (b c : Byte) :
    wordSum (pre ++ [b] ++ post) + (if pre.length % 2 = 0 then 256 else 1) * c.toNat =
      wordSum (pre ++ [c] ++ post) + (if pre.length % 2 = 0 then 256 else 1) * b.toNat := by
  match pre, post with
  | [], [] | [], _ :: _ | [_], _ =>
    simp [be16]
    omega
  | x :: y :: pre, post =>
    have ih := wordSum_replace_byte pre post b c
    simp only [List.cons_append, wordSum_cons_cons, List.length_cons, Nat.add_assoc, Nat.add_mod_right, Nat.reduceAdd]
    omega

/-- Exchanging two sequences of even length, at even distances from the start, keeps the sum. -/
theorem wordSum_swap {pre x mid y : List Byte} (post : List Byte) (hp : pre.length % 2 = 0) (hm : mid.length % 2 = 0)
    (hx : x.length % 2 = 0) (hy : y.length % 2 = 0) :
    wordSum (pre ++ x ++ mid ++ y ++ post) = wordSum (pre ++ y ++ mid ++ x ++ post) := by
  simp only [List.append_assoc, wordSum_append hp, wordSum_append hm, wordSum_append hx, wordSum_append hy]
  omega

/-- R165: with the checksum in the field that was zero when it was computed, the sequence checks to 0. -/
theorem internetCsum_fill {pre : List Byte} (post : List Byte) (hp : pre.length % 2 = 0) :
    internetCsum (pre ++ tobe16 (internetCsum (pre ++ [0x00#8, 0x00#8] ++ post)) ++ post) = 0#16 := by
  have hz : wordSum (pre ++ [0x00#8, 0x00#8] ++ post) = wordSum pre + wordSum post := by
    rw [List.append_assoc, wordSum_append hp]
    simp [be16]
  have hc := internetCsum_toNat (pre ++ [0x00#8, 0x00#8] ++ post)
  rw [onesSum_eq, hz] at hc
  rw [internetCsum_eq_zero_iff, onesSum_eq_max_iff, List.append_assoc, wordSum_append hp,
    wordSum_append (by simp), wordSum_tobe16, hc]
  split <;> omega

/-- R166: a sequence that checks to 0 does not with one byte changed: the change is smaller than 0xFFFF. -/
theorem internetCsum_replace_byte_ne_zero {pre post : List Byte} {b c : Byte} (hbc : b ≠ c)
    (h : internetCsum (pre ++ [b] ++ post) = 0#16) : internetCsum (pre ++ [c] ++ post) ≠ 0#16 := by
  intro h'
  rw [internetCsum_eq_zero_iff, onesSum_eq_max_iff] at h h'
  have hne : b.toNat ≠ c.toNat := fun e => hbc (BitVec.toNat_inj.mp e)
  have hb := b.isLt
  have hc := c.isLt
  have hsum := wordSum_replace_byte pre post b c
  split at hsum <;> omega

end Sys2Proof.Machine
end

section
/-! SUPPORT. The checksum commands and the echo reply over frame memory: what a write makes of a sequence around it, and
what each command does once its checks pass (spec/41_checksum.md R162–R164, 42_frame_synth.md R184). -/

namespace Sys2Proof.Machine

open Sys2Proof.Safety

variable {s t : State} {a : Nat}

/-! ### Sequences and writes -/

/-- A sequence cut into its first `d` bytes, the next `k`, and the rest. -/
theorem exists_split {bs : List Byte} {d k : Nat} (h : d + k ≤ bs.length) :
    ∃ pre mid post, bs = pre ++ mid ++ post ∧ pre.length = d ∧ mid.length = k :=
  ⟨bs.take d, (bs.drop d).take k, (bs.drop d).drop k,
    by rw [List.append_assoc, List.take_append_drop, List.take_append_drop], by rw [List.length_take]; omega,
    by rw [List.length_take, List.length_drop]; omega⟩

/-- A sequence that does not meet a write was there before it. -/
theorem hasBytes_of_setMem_of_disjoint {b : Nat} {bs cs : List Byte} (h : HasBytes (setMem a bs s).fmem b cs)
    (hd : b + cs.length ≤ a ∨ a + bs.length ≤ b) : HasBytes s.fmem b cs := by
  intro j c hj
  have hlt : j < cs.length := (List.getElem?_eq_some_iff.mp hj).1
  rw [← h j c hj, setMem_readByte_outside (by omega)]

/-- A write inside a sequence replaces the bytes it covers. -/
theorem hasBytes_setMem_inside {pre old new post : List Byte} (h : HasBytes s.fmem a (pre ++ old ++ post))
    (hl : new.length = old.length) : HasBytes (setMem (a + pre.length) new s).fmem a (pre ++ new ++ post) := by
  simp only [hasBytes_append, List.length_append] at h ⊢
  obtain ⟨⟨hpre, -⟩, hpost⟩ := h
  exact ⟨⟨hasBytes_setMem_of_disjoint hpre (.inl le_rfl), hasBytes_setMem _ _ _⟩,
    hasBytes_setMem_of_disjoint (hl ▸ hpost) (.inr (by omega))⟩

/-! ### The range checks -/

theorem checkRange_of_gt (k : Check) (h : 0x1000 < s.arg0.toNat + s.arg1.toNat) : checkRange s k = .error .range :=
  if_pos h

theorem checkField_of_gt (k : Check) (h : 0x1000 < s.arg2.toNat + 2) : checkField s k = .error .range := if_pos h

theorem le_of_checkRange_pass {c : Check} (h : checkRange s c = .pass) : s.arg0.toNat + s.arg1.toNat ≤ 0x1000 := by
  by_contra hgt
  rw [checkRange_of_gt c (by omega)] at h
  cases h

/-! ### CSUM -/

/-- CSUM of a range inside frame memory whose bytes are there. -/
theorem exec_csum_of_hasBytes {bs : List Byte} (hr : s.arg0.toNat + s.arg1.toNat ≤ 0x1000)
    (hl : bs.length = s.arg1.toNat) (hb : HasBytes s.fmem s.arg0.toNat bs) :
    exec .csum s = .next (completeOk (csumResult (internetCsum bs) s)) := by
  rw [exec_csum_of_pass (checkRange_of_le _ hr), ← hl, reading_of_hasBytes _ hb]

/-- A command that answers a next state without ERR passed its checks. -/
theorem firstError_of_next_ok {i : Instr} (h : exec i s = .next t) (he : t.status.err = false) :
    firstError i s = .pass := by
  obtain hc | ⟨e, -, -, rfl⟩ := exec_eq_next_cases h
  · exact hc
  · cases he

/-- A CSUM that completes without error summed the bytes of a range inside frame memory. -/
theorem exec_csum_eq_next (h : exec .csum s = .next t) (he : t.status.err = false) :
    s.arg0.toNat + s.arg1.toNat ≤ 0x1000 ∧ ∃ bs, bs.length = s.arg1.toNat ∧ HasBytes s.fmem s.arg0.toNat bs ∧
      t = completeOk (csumResult (internetCsum bs) s) := by
  have hc := firstError_of_next_ok h he
  rw [exec_csum_of_pass hc] at h
  obtain ⟨bs, hl, hb, h⟩ := reading_eq_next h
  exact ⟨le_of_checkRange_pass hc, bs, hl, hb, (Host.Outcome.next.inj h).symm⟩

/-! ### CSUM_FILL -/

/-- R164's two writes of the field: zero, then the checksum `c`. -/
def fillField (c : Half) (s : State) : State :=
  setMem s.arg2.toNat (tobe16 c) (setMem s.arg2.toNat [0x00#8, 0x00#8] s)

theorem fillField_readByte_outside (c : Half) {x : Nat} (h : x < s.arg2.toNat ∨ s.arg2.toNat + 2 ≤ x) :
    (fillField c s).fmem.readByte x = s.fmem.readByte x :=
  (setMem_readByte_outside h).trans (setMem_readByte_outside h)

/-- CSUM_FILL of a range and a field inside frame memory, the range's bytes being there once the field is zero. -/
theorem exec_csumFill_of_hasBytes {bs : List Byte} (hr : s.arg0.toNat + s.arg1.toNat ≤ 0x1000)
    (hf : s.arg2.toNat + 2 ≤ 0x1000) (hl : bs.length = s.arg1.toNat)
    (hb : HasBytes (setMem s.arg2.toNat [0x00#8, 0x00#8] s).fmem s.arg0.toNat bs) :
    exec .csumFill s = .next (completeOk (csumResult (internetCsum bs) (fillField (internetCsum bs) s))) := by
  have hc : firstError .csumFill s = .pass := (checkRange_of_le _ hr).trans (checkField_of_le _ hf)
  rw [exec_csumFill_of_pass hc, ← hl, reading_of_hasBytes _ hb, fillField]

/-- A CSUM_FILL that completes without error summed the bytes the range has once the field is zero. -/
theorem exec_csumFill_eq_next (h : exec .csumFill s = .next t) (he : t.status.err = false) :
    s.arg0.toNat + s.arg1.toNat ≤ 0x1000 ∧ ∃ bs, bs.length = s.arg1.toNat ∧
      HasBytes (setMem s.arg2.toNat [0x00#8, 0x00#8] s).fmem s.arg0.toNat bs ∧
      t = completeOk (csumResult (internetCsum bs) (fillField (internetCsum bs) s)) := by
  have hc := firstError_of_next_ok h he
  rw [exec_csumFill_of_pass hc] at h
  obtain ⟨bs, hl, hb, h⟩ := reading_eq_next h
  exact ⟨le_of_checkRange_pass hc, bs, hl, hb, (Host.Outcome.next.inj h).symm⟩

/-- Bytes that are there but for those of the field, and zero at the field, are there once the field is zero. -/
theorem hasBytes_zeroField {bs : List Byte} {f : Nat} (h : ∀ j b, bs[j]? = some b →
      if a + j = f ∨ a + j = f + 1 then b = 0#8 else s.fmem.readByte (a + j) = some b) :
    HasBytes (setMem f [0x00#8, 0x00#8] s).fmem a bs := by
  intro j b hj
  have hb := h j b hj
  have hzero := hasBytes_setMem f [0x00#8, 0x00#8] s
  split at hb
  · next hfield =>
    subst hb
    obtain e | e := hfield
    · rw [e]
      exact hzero 0 _ rfl
    · rw [e]
      exact hzero 1 _ rfl
  · next hfield => rw [setMem_readByte_outside (by simp only [List.length_cons, List.length_nil]; omega), hb]

/-! ### ICMP_ECHO_REPLY -/

/-- R184's writes: type and code 0, the addresses exchanged, the checksum 0 and then `c`. -/
def echoWrites (src dst : List Byte) (c : Half) (s : State) : State :=
  setMem 36 (tobe16 c) (setMem 36 [0x00#8, 0x00#8] (setMem 30 src (setMem 26 dst (setMem 34 [0x00#8, 0x00#8] s))))

/-- An echo reply that passes its checks and completes exchanged the two addresses it read. -/
theorem exec_icmpEchoReply_eq_next (hc : firstError .icmpEchoReply s = .pass)
    (h : exec .icmpEchoReply s = .next t) :
    ∃ src dst c, src.length = 4 ∧ dst.length = 4 ∧ HasBytes s.fmem 26 src ∧ HasBytes s.fmem 30 dst ∧
      t = completeOk (csumResult c (echoWrites src dst c s)) := by
  rw [exec, execIcmpEchoReply, performing_of_pass _ hc] at h
  obtain ⟨tl, -, -, h⟩ := reading_eq_next h
  obtain ⟨src, hsrc, hs, h⟩ := reading_eq_next h
  obtain ⟨dst, hdst, hd, h⟩ := reading_eq_next h
  obtain ⟨msg, -, -, h⟩ := reading_eq_next h
  exact ⟨src, dst, _, hsrc, hdst, hasBytes_of_setMem_of_disjoint hs (by omega),
    hasBytes_of_setMem_of_disjoint hd (by omega), (Host.Outcome.next.inj h).symm⟩

/-- The IP header RX[14..34) after the writes: the addresses are exchanged. -/
theorem hasBytes_echoWrites {pre src dst : List Byte} (c : Half) (hpre : pre.length = 12) (hsrc : src.length = 4)
    (hdst : dst.length = 4) (h : HasBytes s.fmem 14 (pre ++ src ++ dst)) :
    HasBytes (echoWrites src dst c s).fmem 14 (pre ++ dst ++ src) := by
  have h1 : HasBytes (setMem 34 [0x00#8, 0x00#8] s).fmem 14 (pre ++ src ++ dst) :=
    hasBytes_setMem_of_disjoint h (by simp [hpre, hsrc, hdst])
  have h2 := hasBytes_setMem_inside h1 (hdst.trans hsrc.symm)
  rw [← List.append_nil (pre ++ dst ++ dst)] at h2
  have h3 := hasBytes_setMem_inside h2 (hsrc.trans hdst.symm)
  simp only [List.length_append, hpre, hdst, Nat.reduceAdd, List.append_nil] at h3
  exact hasBytes_setMem_of_disjoint (hasBytes_setMem_of_disjoint h3 (by simp [hpre, hsrc, hdst]))
    (by simp [hpre, hsrc, hdst])

end Sys2Proof.Machine
end

section
/-! The statements about the checksum (spec/41_checksum.md), and R167 for the echo reply's address swap. -/

namespace Sys2Proof.Proofs

open Sys2Proof Sys2Proof.Machine Sys2Proof.Safety

/-- Settles O21: the read finds the bytes, and completion and result write STATUS and RES0–RES3 alone. -/
theorem csumReturnsChecksumOfRange : Obligations.CsumReturnsChecksumOfRange := by
  intro s bs hr hl hb
  have h := exec_csum_of_hasBytes hr hl hb
  exact ⟨_, h, ⟨rfl, rfl, rfl, rfl⟩, ⟨rfl, rfl, rfl, rfl, rfl⟩, commandsNeverWriteOperands _ _ _ h, ⟨rfl, rfl⟩,
    fun _ => rfl, rfl, rfl⟩

/-- Settles O22: the end-around carry keeps the sum modulo 0xFFFF and its being 0. -/
theorem onesSumIsOnesComplementSum : Obligations.OnesSumIsOnesComplementSum :=
  ⟨onesSum_eq, fun bs => ⟨onesSum_le bs, internetCsum_toNat bs⟩, wordSum_cons_cons,
    fun _ => ⟨rfl, by simp⟩⟩

/-- Settles O23: by the word sum, which is 0 only for zero bytes and does not see the order of words. -/
theorem checksumExtremesAndSwap : Obligations.ChecksumExtremesAndSwap := by
  refine ⟨fun bs => internetCsum_eq_zero_iff, fun bs => onesSum_eq_zero_iff.trans (wordSum_eq_zero_iff bs), ?_⟩
  intro pre mid post x y hp hm hx hy
  exact onesSum_congr (wordSum_swap post hp hm (by rw [hx]) (by rw [hy]))

/-- Settles O24: the range is read with the field zero, and only the field is written. -/
theorem csumFillStoresChecksum : Obligations.CsumFillStoresChecksum := by
  intro s bs hr hf hl hb
  have h := exec_csumFill_of_hasBytes hr hf hl (hasBytes_zeroField hb)
  exact ⟨_, h, hasBytes_setMem _ (tobe16 (internetCsum bs)) _, fun x hx => fillField_readByte_outside _ hx,
    ⟨rfl, rfl, rfl, rfl⟩, ⟨rfl, rfl, rfl, rfl, rfl⟩, commandsNeverWriteOperands _ _ _ h, ⟨rfl, rfl⟩, rfl, rfl⟩

/-- Settles O25: the range is the summed one with the checksum in the place of its two zero bytes. -/
theorem csumAfterFillIsZero : Obligations.CsumAfterFillIsZero := by
  intro s t ht he hlow hhigh heven
  obtain ⟨hr, bs, hl, hb, rfl⟩ := exec_csumFill_eq_next ht he
  obtain ⟨pre, field, post, rfl, hpre, hfield⟩ :=
    exists_split (bs := bs) (d := s.arg2.toNat - s.arg0.toNat) (k := 2) (by omega)
  have hfa : s.arg2.toNat = s.arg0.toNat + pre.length := by omega
  obtain rfl : field = [0x00#8, 0x00#8] := by
    have hmid := (hasBytes_append.mp (hasBytes_append.mp hb).1).2
    exact hasBytes_unique hfield (hfa ▸ hmid) (hasBytes_setMem _ _ _)
  have hfilled := hasBytes_setMem_inside hb
    (tobe16_length (internetCsum (pre ++ [0x00#8, 0x00#8] ++ post)))
  rw [← hfa] at hfilled
  have hlen : (pre ++ tobe16 (internetCsum (pre ++ [0x00#8, 0x00#8] ++ post)) ++ post).length = s.arg1.toNat := by
    rw [← hl]
    simp only [List.length_append, tobe16_length, List.length_cons, List.length_nil]
  exact ⟨_, exec_csum_of_hasBytes hr hlen hfilled, rfl, zext32_eq_zero_iff.mpr (internetCsum_fill post (hpre ▸ heven))⟩

/-- Settles O26: the range of the second CSUM is the first one's with one byte replaced. -/
theorem oneByteCorruptionIsSeen : Obligations.OneByteCorruptionIsSeen := by
  intro s t a c ht he hres hlow hhigh hac
  obtain ⟨hr, bs, hl, hb, rfl⟩ := exec_csum_eq_next ht he
  obtain ⟨pre, mid, post, rfl, hpre, hmid⟩ := exists_split (bs := bs) (d := a - s.arg0.toNat) (k := 1) (by omega)
  obtain ⟨b, rfl⟩ := List.length_eq_one_iff.mp hmid
  have ha : a = s.arg0.toNat + pre.length := by omega
  have hold : s.fmem.readByte a = some b := by
    rw [ha]
    exact (hasBytes_append.mp (hasBytes_append.mp hb).1).2 0 b rfl
  have hbc : b ≠ c := fun e => hac (e ▸ hold)
  have hnew : HasBytes (setMem a [c] s).fmem s.arg0.toNat (pre ++ [c] ++ post) := ha ▸ hasBytes_setMem_inside hb rfl
  exact ⟨_, exec_csum_of_hasBytes (s := setMem a [c] s) hr (by simpa using hl) hnew, rfl,
    mt zext32_eq_zero_iff.mp (internetCsum_replace_byte_ne_zero hbc (zext32_eq_zero_iff.mp hres))⟩

/-- Settles O30: the header after is the one before with two neighbouring 4-byte fields exchanged. -/
theorem echoReplyKeepsIpHeaderSum : Obligations.EchoReplyKeepsIpHeaderSum := by
  intro s t before after ht hlb hb hla ha
  obtain hc | ⟨e, -, -, rfl⟩ := exec_eq_next_cases ht
  · obtain ⟨src, dst, c, hsrc, hdst, hs, hd, rfl⟩ := exec_icmpEchoReply_eq_next hc ht
    obtain ⟨pre, mid, post, rfl, hpre, hmid⟩ := exists_split (bs := before) (d := 12) (k := 4) (by omega)
    have hpost : post.length = 4 := by simp only [List.length_append] at hlb; omega
    have hb' := hb
    simp only [hasBytes_append, List.length_append, hpre, hmid, Nat.reduceAdd] at hb'
    obtain ⟨⟨-, hm⟩, hp⟩ := hb'
    obtain rfl := hasBytes_unique (hmid.trans hsrc.symm) hm hs
    obtain rfl := hasBytes_unique (hpost.trans hdst.symm) hp hd
    obtain rfl : after = pre ++ post ++ mid :=
      hasBytes_unique (by simp [hla, hpre, hmid, hpost]) ha (hasBytes_echoWrites c hpre hmid hpost hb)
    have hswap := wordSum_swap (mid := []) [] (by rw [hpre]) rfl (by rw [hpost]) (by rw [hmid])
    exact onesSum_congr (by simpa using hswap)
  · rw [hasBytes_unique (hla.trans hlb.symm) ha hb]

/-- Settles O27: each check fails on its own, and the checksum of no bytes is 0xFFFF. -/
theorem checksumRangesAreChecked : Obligations.ChecksumRangesAreChecked := by
  intro s
  refine ⟨fun h => exec_of_error (checkRange_of_gt _ h), fun h => exec_of_error ?_, fun hn ha => ?_⟩
  · by_cases hr : 0x1000 < s.arg0.toNat + s.arg1.toNat
    · exact checkRange_of_gt _ hr
    · exact (checkRange_of_le _ (by omega)).trans (checkField_of_gt _ (h.resolve_left hr))
  · have hlen : ([] : List Byte).length = s.arg1.toNat := by rw [hn]; rfl
    have hr : s.arg0.toNat + s.arg1.toNat ≤ 0x1000 := by simpa [hn] using ha
    exact ⟨⟨_, exec_csum_of_hasBytes hr hlen fun j b hj => (by cases hj), rfl, rfl⟩,
      fun hf => ⟨_, exec_csumFill_of_hasBytes hr hf hlen fun j b hj => (by cases hj), rfl, rfl⟩⟩

end Sys2Proof.Proofs
end

section
/-! SUPPORT. Frames in frame memory: how consecutive writes build one, and what the length checks and the completion of
a frame command say (spec/42_frame_synth.md, 60_exceptions.md R235, R237). -/

namespace Sys2Proof.Machine

open Sys2Proof.Safety

variable {s t u : State} {a b : Nat} {bs cs : List Byte}

/-! ### A stored sequence and the bytes around it -/

/-- What stands outside the changed bytes stays. -/
theorem hasBytes_of_sameOutside {n : Nat} (h : SameOutside a n s t) (hb : HasBytes s.fmem b bs)
    (hd : b + bs.length ≤ a ∨ a + n ≤ b) : HasBytes t.fmem b bs := by
  intro j c hj
  have hlt : j < bs.length := (List.getElem?_eq_some_iff.mp hj).1
  rw [h _ (by omega), hb j c hj]

/-- One more write inside the changed bytes. -/
theorem sameOutside_setMem {n : Nat} (h : SameOutside a n s u) (hlow : a ≤ b) (hhigh : b + bs.length ≤ a + n) :
    SameOutside a n s (setMem b bs u) :=
  fun x hx => (setMem_readByte_outside (by omega)).trans (h x hx)

/-- `u` holds the sequence `bs` at `a`, and every other byte reads as in `s`. -/
def WrittenAt (a : Nat) (bs : List Byte) (s u : State) : Prop := HasBytes u.fmem a bs ∧ SameOutside a bs.length s u

theorem writtenAt_setMem (a : Nat) (bs : List Byte) (s : State) : WrittenAt a bs s (setMem a bs s) :=
  ⟨hasBytes_setMem a bs s, fun _ hx => setMem_readByte_outside hx⟩

/-- A write right behind the stored sequence appends to it. -/
theorem WrittenAt.append (h : WrittenAt a bs s u) (cs : List Byte) (hb : b = a + bs.length) :
    WrittenAt a (bs ++ cs) s (setMem b cs u) := by
  subst hb
  refine ⟨hasBytes_append.mpr ⟨hasBytes_setMem_of_disjoint h.1 (.inl le_rfl), hasBytes_setMem _ _ _⟩, fun x hx => ?_⟩
  rw [List.length_append] at hx
  exact (setMem_readByte_outside (by omega)).trans (h.2 x (by omega))

/-- A write made earlier, right behind the stored sequence, extends it. -/
theorem WrittenAt.append_earlier (h : WrittenAt a bs (setMem b cs s) u) (hb : b = a + bs.length) :
    WrittenAt a (bs ++ cs) s u := by
  subst hb
  refine ⟨hasBytes_append.mpr ⟨h.1, hasBytes_of_sameOutside h.2 (hasBytes_setMem _ _ _) (.inr le_rfl)⟩, fun x hx => ?_⟩
  rw [List.length_append] at hx
  exact (h.2 x (by omega)).trans (setMem_readByte_outside (by omega))

/-- A write inside the stored sequence replaces the bytes it covers. -/
theorem WrittenAt.replace {pre old post : List Byte} (h : WrittenAt a (pre ++ old ++ post) s u) {new : List Byte}
    (hb : b = a + pre.length) (hl : new.length = old.length) :
    WrittenAt a (pre ++ new ++ post) s (setMem b new u) := by
  subst hb
  have hlen : (pre ++ old ++ post).length = (pre ++ new ++ post).length := by simp only [List.length_append, hl]
  refine ⟨hasBytes_setMem_inside h.1 hl, sameOutside_setMem (hlen ▸ h.2) (by omega) ?_⟩
  simp only [List.length_append]
  omega

/-- With `n` bytes there, a read of `n` bytes goes on with them. -/
theorem reading_of_hasBytes_of_length {m : Memory} {n : Nat} {k : List Byte → Result} (hl : bs.length = n)
    (h : HasBytes m a bs) : reading m a n k = k bs := hl ▸ reading_of_hasBytes k h

/-! ### The length checks -/

theorem checkRxLen_of_gt {least : Nat} (c : Check) (h : 2048 < s.rxLen.toNat) : checkRxLen least s c = .error .range :=
  if_pos h

theorem checkRxLen_of_lt {least : Nat} (c : Check) (hl : s.rxLen.toNat < least) (h : s.rxLen.toNat ≤ 2048) :
    checkRxLen least s c = .error .shortFrame := by
  rw [checkRxLen, if_neg (by omega), if_pos hl]

theorem of_checkRxLen_pass {least : Nat} {c : Check} (h : checkRxLen least s c = .pass) :
    least ≤ s.rxLen.toNat ∧ s.rxLen.toNat ≤ 2048 ∧ c = .pass := by
  unfold checkRxLen at h
  split_ifs at h with hlong hshort
  exact ⟨by omega, by omega, h⟩

/-- The total length check passes on a length that holds an ICMP header and fits in the frame. -/
theorem checkTotlen_eq_pass_iff {th tl : Byte} (hb : HasBytes s.fmem 16 [th, tl]) :
    checkTotlen s = .pass ↔ 28 ≤ be16 th tl ∧ 14 + be16 th tl ≤ s.rxLen.toNat := by
  rw [checkTotlen_of_hasBytes hb, ite_eq_right_iff]
  simp only [reduceCtorEq, imp_false]
  omega

/-! ### Completion -/

/-- A command outside the trie that answers a next state without ERR completed, and kept operands and stores. -/
theorem completedOk_of_exec {i : Instr} (h : exec i s = .next t) (he : t.status.err = false) (hins : i ≠ .lpmInsert)
    (hlook : i ≠ .lpmLookup) : CompletedOk s t ∧ SameOperands s t ∧ SameStores s t := by
  obtain ⟨e, -, rfl⟩ | ⟨u, rfl, hu⟩ := exec_eq_next h
  · cases he
  · have hfound : u.status.found = s.status.found := by rw [hu.frame.status hlook]
    exact ⟨⟨rfl, rfl, rfl, rfl, hfound⟩, hu.frame.operands, hu.frame.stores hins⟩

/-- A CSUM of a range whose bytes check to 0, its operands having been written. -/
theorem csum_zero_of_hasBytes {x n : Word} (hr : x.toNat + n.toNat ≤ 0x1000) (hl : bs.length = n.toNat)
    (hb : HasBytes t.fmem x.toNat bs) (hz : internetCsum bs = 0#16) :
    ∃ u, exec .csum { t with arg0 := x, arg1 := n } = .next u ∧ u.status.err = false ∧ u.res0 = 0#32 :=
  ⟨_, exec_csum_of_hasBytes (s := { t with arg0 := x, arg1 := n }) hr hl hb, rfl, zext32_eq_zero_iff.mpr hz⟩

end Sys2Proof.Machine
end

section
/-! SUPPORT. ICMP_ECHO_REPLY (spec/42_frame_synth.md R184): the frames it turns into a reply, and the reply. -/

namespace Sys2Proof.Machine

open Sys2Proof.Safety

variable {s t : State} {th tl : Byte} {src dst rest : List Byte}

/-- A frame in RXBUF that ICMP_ECHO_REPLY accepts: its lengths pass the checks, `th tl` is its IP total length, `src`
and `dst` are its IP addresses and `rest` is what follows type, code and checksum in the ICMP message. -/
structure EchoRequest (s : State) (th tl : Byte) (src dst rest : List Byte) : Prop where
  notShort : 42 ≤ s.rxLen.toNat
  inBuffer : s.rxLen.toNat ≤ 2048
  total : HasBytes s.fmem 16 [th, tl]
  holdsHeaders : 28 ≤ be16 th tl
  inFrame : 14 + be16 th tl ≤ s.rxLen.toNat
  src_length : src.length = 4
  src_bytes : HasBytes s.fmem 26 src
  dst_length : dst.length = 4
  dst_bytes : HasBytes s.fmem 30 dst
  rest_length : rest.length + 24 = be16 th tl
  rest_bytes : HasBytes s.fmem 38 rest

/-- The checksum of an echo reply's ICMP message: type, code and checksum count as 0. -/
def echoCsum (rest : List Byte) : Half := internetCsum ([0x00#8, 0x00#8, 0x00#8, 0x00#8] ++ rest)

/-- R184's writes before the sum: type and code 0, the addresses exchanged, the checksum 0. -/
def echoCleared (src dst : List Byte) (s : State) : State :=
  setMem 36 [0x00#8, 0x00#8] (setMem 30 src (setMem 26 dst (setMem 34 [0x00#8, 0x00#8] s)))

theorem echoWrites_eq (src dst : List Byte) (c : Half) (s : State) :
    echoWrites src dst c s = setMem 36 (tobe16 c) (echoCleared src dst s) := rfl

/-- The state an echo reply that completes leaves. -/
def echoReplied (src dst rest : List Byte) (s : State) : State :=
  completeOk (csumResult (echoCsum rest) (echoWrites src dst (echoCsum rest) s))

/-- The changed bytes before the sum are RX[26..38): both addresses, and 0 in the place of type, code and checksum. -/
theorem writtenAt_echoCleared (s : State) (hsrc : src.length = 4) (hdst : dst.length = 4) :
    WrittenAt 26 (dst ++ src ++ [0x00#8, 0x00#8] ++ [0x00#8, 0x00#8]) s (echoCleared src dst s) := by
  have haddrs := (writtenAt_setMem 26 dst (setMem 34 [0x00#8, 0x00#8] s)).append src (b := 30) (by rw [hdst])
  exact (haddrs.append_earlier (by simp [hsrc, hdst])).append _ (by simp [hsrc, hdst])

/-- What an echo reply leaves in RX[26..38). -/
theorem writtenAt_echoWrites (c : Half) (s : State) (hsrc : src.length = 4) (hdst : dst.length = 4) :
    WrittenAt 26 (dst ++ src ++ [0x00#8, 0x00#8] ++ tobe16 c) s (echoWrites src dst c s) := by
  have h := writtenAt_echoCleared s hsrc hdst
  rw [← List.append_nil (dst ++ src ++ [0x00#8, 0x00#8] ++ _)] at h
  have hfilled := h.replace (b := 36) (new := tobe16 c) (by simp [hsrc, hdst]) rfl
  rwa [List.append_nil, ← echoWrites_eq] at hfilled

/-- A sequence behind RX[26..38) still follows the ICMP header's first four bytes. -/
theorem hasBytes_icmp_of_writtenAt {addrs ck : List Byte} (h : WrittenAt 26 (addrs ++ [0x00#8, 0x00#8] ++ ck) s t)
    (haddrs : addrs.length = 8) (hck : ck.length = 2) (hrest : HasBytes s.fmem 38 rest) :
    HasBytes t.fmem 34 ([0x00#8, 0x00#8] ++ ck ++ rest) := by
  obtain ⟨hbytes, hout⟩ := h
  rw [List.append_assoc, hasBytes_append, haddrs] at hbytes
  have hlen : ([0x00#8, 0x00#8] ++ ck).length = 4 := by simp [hck]
  refine hasBytes_append.mpr ⟨hbytes.2, ?_⟩
  rw [hlen]
  exact hasBytes_of_sameOutside hout hrest (.inr (by simp [haddrs, hck]))

/-- ICMP_ECHO_REPLY of a frame it accepts. -/
theorem EchoRequest.exec_eq (h : EchoRequest s th tl src dst rest) :
    exec .icmpEchoReply s = .next (echoReplied src dst rest s) := by
  have hc : firstError .icmpEchoReply s = .pass :=
    (checkRxLen_of_le _ h.notShort h.inBuffer).trans
      ((checkTotlen_eq_pass_iff h.total).mpr ⟨h.holdsHeaders, h.inFrame⟩)
  have hsrc : HasBytes (setMem 34 [0x00#8, 0x00#8] s).fmem 26 src :=
    hasBytes_setMem_of_disjoint h.src_bytes (by simp [h.src_length])
  have hdst : HasBytes (setMem 34 [0x00#8, 0x00#8] s).fmem 30 dst :=
    hasBytes_setMem_of_disjoint h.dst_bytes (by simp [h.dst_length])
  have hmsg := hasBytes_icmp_of_writtenAt (writtenAt_echoCleared s h.src_length h.dst_length)
    (by simp [h.src_length, h.dst_length]) rfl h.rest_bytes
  have hlen : ([0x00#8, 0x00#8] ++ [0x00#8, 0x00#8] ++ rest).length = be16Seq [th, tl] - 20 := by
    have htotal : be16Seq [th, tl] = rest.length + 24 := h.rest_length.symm
    simp only [List.length_append, List.length_cons, List.length_nil]
    omega
  rw [exec, execIcmpEchoReply, performing_of_pass _ hc]
  exact (reading_of_hasBytes_of_length rfl h.total).trans ((reading_of_hasBytes_of_length h.src_length hsrc).trans
    ((reading_of_hasBytes_of_length h.dst_length hdst).trans (reading_of_hasBytes_of_length hlen hmsg)))

/-- An echo reply that completes without error found a frame it accepts. -/
theorem exists_echoRequest (h : exec .icmpEchoReply s = .next t) (he : t.status.err = false) :
    ∃ th tl src dst rest, EchoRequest s th tl src dst rest := by
  have hc := firstError_of_next_ok h he
  rw [exec, execIcmpEchoReply, performing_of_pass _ hc] at h
  obtain ⟨hshort, hbuf, htot⟩ := of_checkRxLen_pass hc
  obtain ⟨total, htotal, ht, h⟩ := reading_eq_next h
  obtain ⟨th, tl, rfl⟩ := List.length_eq_two.mp htotal
  obtain ⟨hleast, hfits⟩ := (checkTotlen_eq_pass_iff ht).mp htot
  obtain ⟨src, hsrc, hs, h⟩ := reading_eq_next h
  obtain ⟨dst, hdst, hd, h⟩ := reading_eq_next h
  obtain ⟨msg, hmsg, hm, -⟩ := reading_eq_next h
  have hmsg' : msg.length = be16 th tl - 20 := hmsg
  have hm' : HasBytes (echoCleared src dst s).fmem 34 msg := hm
  obtain ⟨head, rest, hsplit, hhead⟩ : ∃ head rest, msg = head ++ rest ∧ head.length = 4 :=
    ⟨msg.take 4, msg.drop 4, (List.take_append_drop 4 msg).symm, by rw [List.length_take]; omega⟩
  rw [hsplit, List.length_append, hhead] at hmsg'
  rw [hsplit, hasBytes_append, hhead] at hm'
  have hcleared : SameOutside 26 12 s (echoCleared src dst s) := by
    simpa [hsrc, hdst] using (writtenAt_echoCleared s hsrc hdst).2
  refine ⟨th, tl, src, dst, rest, hshort, hbuf, ht, hleast, hfits, hsrc,
    hasBytes_of_setMem_of_disjoint hs (by omega), hdst, hasBytes_of_setMem_of_disjoint hd (by omega), by omega, ?_⟩
  exact hasBytes_of_sameOutside (fun x hx => (hcleared x hx).symm) hm'.2 (.inr le_rfl)

/-- The ICMP message of the reply checks to 0: its checksum was taken with 0 in the field. -/
theorem EchoRequest.csum_message (h : EchoRequest s th tl src dst rest) :
    ∃ u, exec .csum { echoReplied src dst rest s with arg0 := 0x022#32, arg1 := BitVec.ofNat 32 (be16 th tl - 20) } =
      .next u ∧ u.status.err = false ∧ u.res0 = 0#32 := by
  have hmsg := hasBytes_icmp_of_writtenAt (writtenAt_echoWrites (echoCsum rest) s h.src_length h.dst_length)
    (by simp [h.src_length, h.dst_length]) (tobe16_length _) h.rest_bytes
  have hmax : be16 th tl ≤ 2048 := (Nat.le_add_left _ 14).trans (h.inFrame.trans h.inBuffer)
  have hlen : (BitVec.ofNat 32 (be16 th tl - 20)).toNat = rest.length + 4 := by
    rw [toNat_ofNat_word (by omega), ← h.rest_length]
    omega
  have hrange : 0x022 + (rest.length + 4) ≤ 0x1000 := by
    rw [← h.rest_length] at hmax
    omega
  refine csum_zero_of_hasBytes (hlen ▸ hrange) ?_ hmsg (internetCsum_fill (pre := [0x00#8, 0x00#8]) rest (by simp))
  simp only [hlen, List.length_append, tobe16_length, List.length_cons, List.length_nil]
  omega

/-- RX[14..34) holds 20 bytes after an echo reply too: those before the addresses, and the addresses exchanged. -/
theorem exists_ipHeader_echoWrites {before : List Byte} (c : Half) (hsrc : src.length = 4) (hdst : dst.length = 4)
    (hl : before.length = 20) (hb : HasBytes s.fmem 14 before) :
    ∃ after, after.length = 20 ∧ HasBytes (echoWrites src dst c s).fmem 14 after := by
  obtain ⟨hbytes, hout⟩ := writtenAt_echoWrites c s hsrc hdst
  have hhead : (before.take 12).length = 12 := by rw [List.length_take, hl]; rfl
  rw [← List.take_append_drop 12 before, hasBytes_append] at hb
  rw [List.append_assoc, hasBytes_append] at hbytes
  refine ⟨before.take 12 ++ (dst ++ src), by simp [hl, hsrc, hdst], hasBytes_append.mpr ⟨?_, ?_⟩⟩
  · exact hasBytes_of_sameOutside hout hb.1 (.inl (by rw [hhead]))
  · rw [hhead]
    exact hbytes.1

/-- The IP header of the reply sums to what that of the request does. -/
theorem EchoRequest.csum_ipHeader {v : State} (h : EchoRequest s th tl src dst rest)
    (hv : exec .csum { s with arg0 := 0x00E#32, arg1 := 20#32 } = .next v) :
    ∃ u, exec .csum { echoReplied src dst rest s with arg0 := 0x00E#32, arg1 := 20#32 } = .next u ∧
      u.status.err = false ∧ u.res0 = v.res0 := by
  have hr : (0x00E#32).toNat + (20#32).toNat ≤ 0x1000 := by decide
  rw [exec_csum_of_pass (checkRange_of_le _ hr)] at hv
  obtain ⟨before, hbl, hb, hv⟩ := reading_eq_next hv
  obtain rfl := Host.Outcome.next.inj hv
  obtain ⟨after, hal, ha⟩ := exists_ipHeader_echoWrites (echoCsum rest) h.src_length h.dst_length hbl hb
  have hsum := Proofs.echoReplyKeepsIpHeaderSum s (echoReplied src dst rest s) before after h.exec_eq hbl hb hal ha
  refine ⟨_, exec_csum_of_hasBytes (s := { echoReplied src dst rest s with arg0 := 0x00E#32, arg1 := 20#32 })
    hr hal ha, rfl, ?_⟩
  show zext32 (internetCsum after) = zext32 (internetCsum before)
  rw [internetCsum, hsum, internetCsum]

end Sys2Proof.Machine
end

section
/-! SUPPORT. The TXBUF builders (spec/42_frame_synth.md R185, R188, R189): the frames they leave and the checksums in
them. -/

namespace Sys2Proof.Machine

open Sys2Proof.Safety

variable {s t : State} {k : Byte} {smac orig osrc : List Byte}

/-! ### The interface's identity -/

/-- The MAC of an interface entry (10_state.md R40). -/
theorem mac_of_getElem? {e : IfEntry} (h : s.iftab[k.toNat]? = some e) :
    mac s k = wire e.macLo ++ [e.macHi.extractLsb' 0 8, e.macHi.extractLsb' 8 8] := by
  rw [mac, ifEntry_of_getElem? h]

theorem ipw_of_getElem? {e : IfEntry} (h : s.iftab[k.toNat]? = some e) : ipw s k = wire e.ip := by
  rw [ipw, ifEntry_of_getElem? h]

/-! ### ARP -/

/-- An ARP frame, from the entry of the interface that sends it (R180, R183). -/
theorem arpFrame_of_getElem? {e : IfEntry} (h : s.iftab[k.toNat]? = some e) (dst : List Byte) (oper : Byte)
    (tha tpa : List Byte) :
    arpFrame s k dst oper tha tpa =
      dst ++ (wire e.macLo ++ [e.macHi.extractLsb' 0 8, e.macHi.extractLsb' 8 8]) ++
        [0x08#8, 0x06#8, 0x00#8, 0x01#8, 0x08#8, 0x00#8, 0x06#8, 0x04#8, 0x00#8, oper] ++
        (wire e.macLo ++ [e.macHi.extractLsb' 0 8, e.macHi.extractLsb' 8 8]) ++ wire e.ip ++ tha ++ tpa := by
  simp [arpFrame, mac_of_getElem? h, ipw_of_getElem? h]

/-- A sent ARP frame is what TXBUF holds; TX_LEN, TX_IF and the results are set. -/
theorem sendArp_builds {frame : List Byte} (hl : frame.length = 42) (k : Byte) (s : State) :
    ∃ t, sendArp k frame s = .next t ∧ t.status.err = false ∧ HasBytes t.fmem 0x800 frame ∧
      SameOutside 0x800 42 s t ∧ t.txLen = 42#16 ∧ t.txIf = k ∧ HasRes t 0#32 0#32 0#32 0#32 := by
  obtain ⟨hbytes, hout⟩ := writtenAt_setMem 0x800 frame s
  exact ⟨_, rfl, rfl, hbytes, hl ▸ hout, rfl, rfl, rfl, rfl, rfl, rfl⟩

/-! ### The header and the message of an ICMP error -/

/-- The IP header of the ICMP error that interface `k` sends to `osrc`, with the checksum `ck` (R185). -/
def errorIp (k : Byte) (osrc : List Byte) (s : State) (ck : Half) : List Byte :=
  errorHeader s.params.errIpId ck (ipw s k) osrc

/-- That header up to its checksum. -/
def errorIpStart (s : State) : List Byte :=
  [0x45#8, 0x00#8, 0x00#8, 0x24#8] ++ tobe16 s.params.errIpId ++ [0x00#8, 0x00#8, 0x40#8, 0x01#8]

@[simp] theorem errorIpStart_length (s : State) : (errorIpStart s).length = 10 := rfl

@[simp] theorem errorIp_length (k : Byte) (s : State) (ck : Half) :
    (errorIp k osrc s ck).length = osrc.length + 16 := by
  simp only [errorIp, errorHeader, List.length_append, List.length_cons, List.length_nil, ipw_length]
  omega

@[simp] theorem errorMessage_length (type : Byte) (ck : Half) (orig : List Byte) :
    (errorMessage type ck orig).length = orig.length + 8 := by
  simp [errorMessage]

/-- The checksum field in the header, behind what precedes the header. -/
theorem append_errorIp (pre : List Byte) (k : Byte) (osrc : List Byte) (s : State) (ck : Half) :
    pre ++ errorIp k osrc s ck = pre ++ errorIpStart s ++ tobe16 ck ++ (ipw s k ++ osrc) := by
  simp [errorIp, errorHeader, errorIpStart, tobe16]

/-- The checksum field in the message, behind what precedes the message. -/
theorem append_errorMessage (pre : List Byte) (type : Byte) (ck : Half) (orig : List Byte) :
    pre ++ errorMessage type ck orig =
      pre ++ [type, 0x00#8] ++ tobe16 ck ++ ([0x00#8, 0x00#8, 0x00#8, 0x00#8] ++ orig) := by
  simp [errorMessage, tobe16]

theorem tobe16_zero : tobe16 0#16 = [0x00#8, 0x00#8] := by decide

/-- The header with the checksum 0 is what R185 writes. -/
theorem errorIp_zero (k : Byte) (osrc : List Byte) (s : State) :
    errorIp k osrc s 0#16 = errorIpHeader s.params.errIpId ++ ipw s k ++ osrc := by
  simpa [errorIpHeader, errorIpStart, tobe16_zero] using append_errorIp [] k osrc s 0#16

/-- The checksum of the header: that of the header with the checksum 0. -/
def errorIpCsum (k : Byte) (osrc : List Byte) (s : State) : Half := internetCsum (errorIp k osrc s 0#16)

/-- The checksum of the message: that of the message with the checksum 0. -/
def errorMessageCsum (type : Byte) (orig : List Byte) : Half := internetCsum (errorMessage type 0#16 orig)

/-- The IP header of an ICMP error checks to 0. -/
theorem internetCsum_errorIp (k : Byte) (osrc : List Byte) (s : State) :
    internetCsum (errorIp k osrc s (errorIpCsum k osrc s)) = 0#16 := by
  have hfield (ck : Half) : errorIp k osrc s ck = errorIpStart s ++ tobe16 ck ++ (ipw s k ++ osrc) :=
    append_errorIp [] k osrc s ck
  rw [hfield, errorIpCsum, hfield, tobe16_zero]
  exact internetCsum_fill _ (by simp)

/-- The message of an ICMP error checks to 0. -/
theorem internetCsum_errorMessage (type : Byte) (orig : List Byte) :
    internetCsum (errorMessage type (errorMessageCsum type orig) orig) = 0#16 := by
  have hfield (ck : Half) : errorMessage type ck orig =
      [type, 0x00#8] ++ tobe16 ck ++ ([0x00#8, 0x00#8, 0x00#8, 0x00#8] ++ orig) := append_errorMessage [] type ck orig
  rw [hfield, errorMessageCsum, hfield, tobe16_zero]
  exact internetCsum_fill _ (by simp)

/-! ### The writes of an ICMP error -/

/-- The Ethernet header of a frame that interface `k` sends to `dst`, of type IPv4 (R180). -/
def ipEthernet (k : Byte) (dst : List Byte) (s : State) : List Byte := dst ++ mac s k ++ [0x08#8, 0x00#8]

/-- The frame of an ICMP error (R185) with the checksums `ci` and `cc`. -/
def errorFrame (type k : Byte) (smac orig osrc : List Byte) (s : State) (ci cc : Half) : List Byte :=
  ipEthernet k smac s ++ errorIp k osrc s ci ++ errorMessage type cc orig

/-- R185's writes up to the IP header's sum: Ethernet and IP header, the checksum 0. -/
def errorHeaders (k : Byte) (smac osrc : List Byte) (s : State) : State :=
  setMem 0x81E osrc (setMem 0x81A (ipw s k) (setMem 0x80E (errorIpHeader s.params.errIpId)
    (setMem 0x80C [0x08#8, 0x00#8] (setMem 0x806 (mac s k) (setMem 0x800 smac s)))))

/-- R185's writes up to the ICMP message's sum: the IP header's checksum, and the message with the checksum 0. -/
def errorCleared (type k : Byte) (smac orig osrc : List Byte) (s : State) : State :=
  setMem 0x82A orig (setMem 0x822 [type, 0x00#8, 0x00#8, 0x00#8, 0x00#8, 0x00#8, 0x00#8, 0x00#8]
    (setMem 0x818 (tobe16 (errorIpCsum k osrc s)) (errorHeaders k smac osrc s)))

/-- All of R185's writes. -/
def errorWrites (type k : Byte) (smac orig osrc : List Byte) (s : State) : State :=
  setMem 0x824 (tobe16 (errorMessageCsum type orig)) (errorCleared type k smac orig osrc s)

/-- What the ICMP error commands read of the received frame: the sender's link address, the first 8 bytes of the IP
header, and the sender's IP address (R185). -/
structure OffendingFrame (s : State) (smac orig osrc : List Byte) : Prop where
  smac_length : smac.length = 6
  smac_bytes : HasBytes s.fmem 6 smac
  orig_length : orig.length = 8
  orig_bytes : HasBytes s.fmem 14 orig
  osrc_length : osrc.length = 4
  osrc_bytes : HasBytes s.fmem 26 osrc

/-- A builder that answers a next state read those bytes. -/
theorem exists_offendingFrame {type : Byte} (h : buildIcmpError type k s = .next t) :
    ∃ smac orig osrc, OffendingFrame s smac orig osrc := by
  unfold buildIcmpError at h
  obtain ⟨smac, hsmac, hsmacb, h⟩ := reading_eq_next h
  obtain ⟨orig, horig, horigb, h⟩ := reading_eq_next h
  obtain ⟨osrc, hosrc, hosrcb, -⟩ := reading_eq_next h
  exact ⟨smac, orig, osrc, hsmac, hsmacb, horig, horigb, hosrc, hosrcb⟩

section
variable (h : OffendingFrame s smac orig osrc) (type k : Byte)
include h

theorem OffendingFrame.ipEthernet_length : (ipEthernet k smac s).length = 14 := by
  simp [ipEthernet, h.smac_length]

theorem OffendingFrame.errorFrame_length (ci cc : Half) : (errorFrame type k smac orig osrc s ci cc).length = 50 := by
  simp [errorFrame, h.ipEthernet_length, h.orig_length, h.osrc_length]

theorem OffendingFrame.writtenAt_errorHeaders :
    WrittenAt 0x800 (ipEthernet k smac s ++ errorIp k osrc s 0#16) s (errorHeaders k smac osrc s) := by
  have heth : WrittenAt 0x800 (ipEthernet k smac s) s
      (setMem 0x80C [0x08#8, 0x00#8] (setMem 0x806 (mac s k) (setMem 0x800 smac s))) :=
    ((writtenAt_setMem 0x800 smac s).append (mac s k) (by simp [h.smac_length])).append _ (by simp [h.smac_length])
  have hip := ((heth.append (errorIpHeader s.params.errIpId) (b := 0x80E) (by simp [h.ipEthernet_length])).append
    (ipw s k) (b := 0x81A) (by simp [h.ipEthernet_length, errorIpHeader])).append osrc (b := 0x81E)
    (by simp [h.ipEthernet_length, errorIpHeader])
  rw [errorIp_zero, errorHeaders]
  simpa only [List.append_assoc] using hip

/-- TXBUF when the ICMP message is summed: the frame with that checksum 0. -/
theorem OffendingFrame.writtenAt_errorCleared :
    WrittenAt 0x800 (errorFrame type k smac orig osrc s (errorIpCsum k osrc s) 0#16) s
      (errorCleared type k smac orig osrc s) := by
  have hheaders := h.writtenAt_errorHeaders k
  rw [append_errorIp, tobe16_zero] at hheaders
  have hsummed := hheaders.replace (b := 0x818) (new := tobe16 (errorIpCsum k osrc s))
    (by simp [h.ipEthernet_length]) rfl
  rw [← append_errorIp] at hsummed
  have hmessage := (hsummed.append [type, 0x00#8, 0x00#8, 0x00#8, 0x00#8, 0x00#8, 0x00#8, 0x00#8] (b := 0x822)
    (by simp [h.ipEthernet_length, h.osrc_length])).append orig (b := 0x82A)
    (by simp [h.ipEthernet_length, h.osrc_length])
  rwa [List.append_assoc _ _ orig] at hmessage

/-- TXBUF holds the frame after R185's writes. -/
theorem OffendingFrame.writtenAt_errorWrites :
    WrittenAt 0x800 (errorFrame type k smac orig osrc s (errorIpCsum k osrc s) (errorMessageCsum type orig)) s
      (errorWrites type k smac orig osrc s) := by
  have hcleared := h.writtenAt_errorCleared type k
  rw [errorFrame, append_errorMessage, tobe16_zero] at hcleared
  have hframe := hcleared.replace (b := 0x824) (new := tobe16 (errorMessageCsum type orig))
    (by simp [h.ipEthernet_length, h.osrc_length]) rfl
  rwa [← append_errorMessage] at hframe

/-- Where a stored frame has its IP header and its ICMP message. -/
theorem OffendingFrame.hasBytes_of_errorFrame {ci cc : Half}
    (hf : WrittenAt 0x800 (errorFrame type k smac orig osrc s ci cc) s t) :
    HasBytes t.fmem 0x80E (errorIp k osrc s ci) ∧ HasBytes t.fmem 0x822 (errorMessage type cc orig) := by
  obtain ⟨hbytes, -⟩ := hf
  rw [errorFrame, hasBytes_append, hasBytes_append, List.length_append, h.ipEthernet_length, errorIp_length,
    h.osrc_length] at hbytes
  obtain ⟨⟨-, hip⟩, hmessage⟩ := hbytes
  exact ⟨hip, hmessage⟩

/-- The ICMP error builder on a frame whose bytes it reads are there. -/
theorem OffendingFrame.buildIcmpError_eq :
    buildIcmpError type k s = .next (completeOk (setRes (zext32 (errorIpCsum k osrc s))
      (zext32 (errorMessageCsum type orig)) 0#32 0#32 (setTx 50#16 k (errorWrites type k smac orig osrc s)))) := by
  have hheader := (hasBytes_append.mp (h.writtenAt_errorHeaders k).1).2
  rw [h.ipEthernet_length] at hheader
  obtain ⟨-, hmessage⟩ := h.hasBytes_of_errorFrame type k (h.writtenAt_errorCleared type k)
  unfold buildIcmpError
  exact (reading_of_hasBytes_of_length h.smac_length h.smac_bytes).trans
    ((reading_of_hasBytes_of_length h.orig_length h.orig_bytes).trans
    ((reading_of_hasBytes_of_length h.osrc_length h.osrc_bytes).trans
    ((reading_of_hasBytes_of_length (by simp [h.osrc_length]) hheader).trans
    (reading_of_hasBytes_of_length (by simp [h.orig_length]) hmessage))))

end

/-- Both sums of the frame that an ICMP error command leaves are 0. -/
theorem csum_zero_of_buildIcmpError {type : Byte} (h : buildIcmpError type k s = .next t) :
    ∀ p ∈ [(0x80E#32, 20#32), (0x822#32, 16#32)],
      ∃ u, exec .csum { t with arg0 := p.1, arg1 := p.2 } = .next u ∧ u.status.err = false ∧ u.res0 = 0#32 := by
  obtain ⟨smac, orig, osrc, hsrc⟩ := exists_offendingFrame h
  obtain ⟨hheader, hmessage⟩ := hsrc.hasBytes_of_errorFrame type k (hsrc.writtenAt_errorWrites type k)
  rw [hsrc.buildIcmpError_eq type k] at h
  obtain rfl := Host.Outcome.next.inj h
  simp only [List.forall_mem_cons, List.not_mem_nil, false_imp_iff, implies_true, and_true]
  exact ⟨csum_zero_of_hasBytes (by decide) (by simp [hsrc.osrc_length]) hheader (internetCsum_errorIp _ _ _),
    csum_zero_of_hasBytes (by decide) (by simp [hsrc.orig_length]) hmessage (internetCsum_errorMessage _ _)⟩

end Sys2Proof.Machine
end

section
/-! The statements about the frame synthesizer (spec/42_frame_synth.md). -/

namespace Sys2Proof.Proofs

open Sys2Proof Sys2Proof.Machine Sys2Proof.Safety

/-- Settles O28: the reads find the bytes of the request, and the writes fill RX[26..38) without a gap. -/
theorem echoReplyIsBuiltInPlace : Obligations.EchoReplyIsBuiltInPlace := by
  intro s th tl src dst rest hshort hbuf ht hleast hfits hsl hs hdl hd hrl hr c
  have hreq : EchoRequest s th tl src dst rest := ⟨hshort, hbuf, ht, hleast, hfits, hsl, hs, hdl, hd, hrl, hr⟩
  have hexec := hreq.exec_eq
  obtain ⟨hdone, hops, hstores⟩ := completedOk_of_exec hexec rfl (by decide) (by decide)
  have htx : SameTx s _ := (txRegistersNameTheLastFrame _ _ _ hexec).2 rfl
  obtain ⟨hbytes, hout⟩ := writtenAt_echoWrites (echoCsum rest) s hsl hdl
  rw [List.append_assoc] at hbytes
  rw [List.length_append, List.length_append, List.length_append, hsl, hdl] at hout
  exact ⟨_, hexec, hbytes, hout, ⟨rfl, rfl, rfl, rfl⟩, hdone, hops, hstores, htx⟩

/-- Settles O31: both commands build one frame, with another type. -/
theorem icmpErrorFrameIsBuilt : Obligations.IcmpErrorFrameIsBuilt := by
  intro s k e smac orig osrc hk he hshort hbuf hsl hs hol ho hil hi p hp imac ci cc
  have hsrc : OffendingFrame s smac orig osrc := ⟨hsl, hs, hol, ho, hil, hi⟩
  have hc : checkIfid k s (checkRxLen 34 s .pass) = .pass :=
    (checkIfid_of_lt _ hk).trans (checkRxLen_of_le _ hshort hbuf)
  obtain ⟨hbuild, hins, hlook⟩ : exec p.1 s = buildIcmpError p.2 k s ∧ p.1 ≠ .lpmInsert ∧ p.1 ≠ .lpmLookup := by
    simp only [List.mem_cons, List.not_mem_nil, or_false] at hp
    obtain rfl | rfl := hp
    · exact ⟨exec_icmpDestUnreach_of_pass hc, nofun, nofun⟩
    · exact ⟨exec_icmpTimeExceeded_of_pass hc, nofun, nofun⟩
  have hexec := hbuild.trans (hsrc.buildIcmpError_eq p.2 k)
  obtain ⟨hdone, hops, hstores⟩ := completedOk_of_exec hexec rfl hins hlook
  obtain ⟨hbytes, hout⟩ := hsrc.writtenAt_errorWrites p.2 k
  rw [hsrc.errorFrame_length] at hout
  have hip (ck : Half) : errorIp k osrc s ck = errorHeader s.params.errIpId ck (wire e.ip) osrc := by
    rw [errorIp, ipw_of_getElem? he]
  have hci : errorIpCsum k osrc s = ci := congrArg internetCsum (hip 0#16)
  rw [errorFrame, ipEthernet, mac_of_getElem? he, hip, hci] at hbytes
  exact ⟨_, hexec, hbytes, hout, rfl, rfl, ⟨congrArg zext32 hci, rfl, rfl, rfl⟩, hdone, hops, hstores⟩

/-- Settles O32: the frame is written whole. -/
theorem arpRequestFrameIsBuilt : Obligations.ArpRequestFrameIsBuilt := by
  intro s k e hk he imac
  obtain ⟨t, hsend, hok, hbytes, hout, hlen, hif, hres⟩ := sendArp_builds (arpFrame_length s k 0x01#8
    (dst := List.replicate 6 0xFF#8) (tha := List.replicate 6 0x00#8) (tpa := wire s.arg0) rfl rfl rfl) k s
  have hexec := (exec_arpRequest_of_pass (checkIfid_of_lt _ hk)).trans hsend
  obtain ⟨hdone, hops, hstores⟩ := completedOk_of_exec hexec hok nofun nofun
  rw [arpFrame_of_getElem? he] at hbytes
  exact ⟨t, hexec, hbytes, hout, hlen, hif, hres, hdone, hops, hstores⟩

/-- Settles O33: the reads find the requester's addresses, and the frame is written whole. -/
theorem arpReplyFrameIsBuilt : Obligations.ArpReplyFrameIsBuilt := by
  intro s k e rmac rsha rspa hk he hshort hbuf hml hm hhl hh hpl hp imac
  have hc : firstError (.arpReply k) s = .pass := (checkIfid_of_lt _ hk).trans (checkRxLen_of_le _ hshort hbuf)
  obtain ⟨t, hsend, hok, hbytes, hout, hlen, hif, hres⟩ :=
    sendArp_builds (arpFrame_length s k 0x02#8 hml hhl hpl) k s
  have hexec : exec (.arpReply k) s = .next t := by
    rw [exec_arpReply_of_pass hc, reading_of_hasBytes_of_length hml hm, reading_of_hasBytes_of_length hhl hh,
      reading_of_hasBytes_of_length hpl hp, hsend]
  obtain ⟨hdone, hops, hstores⟩ := completedOk_of_exec hexec hok nofun nofun
  rw [arpFrame_of_getElem? he] at hbytes
  exact ⟨t, hexec, hbytes, hout, hlen, hif, hres, hdone, hops, hstores⟩

/-- Settles O35: each stored checksum is that of its range with the field zero, and the address swap keeps the sum. -/
theorem builtFramesCheckToZero : Obligations.BuiltFramesCheckToZero := by
  intro s t k hok
  refine ⟨fun ht => ?_, fun ht => ?_⟩
  · obtain ht | ht := ht
    · rw [exec_icmpDestUnreach_of_pass (firstError_of_next_ok ht hok)] at ht
      exact csum_zero_of_buildIcmpError ht
    · rw [exec_icmpTimeExceeded_of_pass (firstError_of_next_ok ht hok)] at ht
      exact csum_zero_of_buildIcmpError ht
  · obtain ⟨th, tl, src, dst, rest, hreq⟩ := exists_echoRequest ht hok
    obtain rfl := Host.Outcome.next.inj (hreq.exec_eq.symm.trans ht)
    exact ⟨⟨th, tl, hreq.total, hreq.csum_message⟩, fun v hv => hreq.csum_ipHeader hv⟩

/-- Settles O29: each error is what `first_error` finds. -/
theorem echoReplyErrors : Obligations.EchoReplyErrors := by
  intro s
  refine ⟨fun h => exec_of_error (checkRxLen_of_gt _ h),
    fun h => exec_of_error (checkRxLen_of_lt _ h (by omega)), fun th tl hshort hbuf ht htotal => exec_of_error ?_⟩
  exact (checkRxLen_of_le _ hshort hbuf).trans ((checkTotlen_of_hasBytes ht).trans (if_pos htotal))

end Sys2Proof.Proofs
end

section
/-! SUPPORT. The turn of an idle engine, the check of IFID, and the interrupt line (spec/60_exceptions.md R232, R240,
R251). -/

namespace Sys2Proof.Machine

open Sys2Proof.Safety

variable {s : State}

theorem engineTurn_of_idle (hr : s.resetting = false) (hp : s.pending = false) : engineTurn s = .next s := by
  simp [engineTurn, hr, hp]

theorem checkIfid_of_ge {k : Byte} (c : Check) (h : s.params.nif ≤ k.toNat) : checkIfid k s c = .error .badIf :=
  if_pos h

theorem busy_eq_true_iff : s.busy = true ↔ s.pending = true ∨ s.resetting = true := Bool.or_eq_true_iff

theorem irq_eq_true_iff : s.irq = true ↔ s.status.done = true ∧ s.irqEn = true := Bool.and_eq_true_iff

theorem irq_of_done (h : s.status.done = true) : s.irq = s.irqEn := by rw [State.irq, h, Bool.true_and]

theorem irq_of_not_done (h : s.status.done = false) : s.irq = false := by rw [State.irq, h, Bool.false_and]

end Sys2Proof.Machine
end

section
/-! The statements about completion, errors and the interrupt (spec/60_exceptions.md). -/

namespace Sys2Proof.Proofs

open Sys2Proof Sys2Proof.Machine Sys2Proof.Safety

/-- Settles O38: a command reports one error, or has its effect, which leaves STATUS alone but for a lookup's FOUND. -/
theorem completionIsAllOrOneError : Obligations.CompletionIsAllOrOneError := by
  intro i s t ht
  obtain herr | ⟨u, rfl, hu⟩ := exec_eq_next ht
  · exact .inr herr
  · obtain ⟨-, -, -, -, -, -, -, -, -, hovr, -⟩ := hu.frame.operands
    have hfound (hi : i ≠ .lpmLookup) : u.status.found = s.status.found := by rw [hu.frame.status hi]
    exact .inl ⟨rfl, rfl, rfl, rfl, hovr, hfound⟩

/-- Settles O7: either way the step is the sequencer's turn, which leaves an idle engine as it is. -/
theorem idleEngineHoldsItsState : Obligations.IdleEngineHoldsItsState := by
  intro s hz hr hp
  refine ⟨fun hi => ?_, fun rest hi => ?_⟩
  · exact (step_nil hz hi).trans (engineTurn_of_idle hr hp)
  · exact (step_engine hz hi).trans (engineTurn_of_idle hr hp)

/-- Settles O34: each error is what `first_error` finds, the check of IFID being the first. -/
theorem txBuilderErrors : Obligations.TxBuilderErrors := by
  intro s k
  refine ⟨fun hk => ?_, fun hk hlong => ?_, fun hk hshort => ?_, fun hk hshort => ?_⟩
  · have hbad (c : Check) : checkIfid k s c = .error .badIf := checkIfid_of_ge c hk
    exact ⟨exec_of_error (hbad _), exec_of_error (hbad _), exec_of_error (hbad _), exec_of_error (hbad _)⟩
  · have hrange (least : Nat) : checkIfid k s (checkRxLen least s .pass) = .error .range :=
      (checkIfid_of_lt _ hk).trans (checkRxLen_of_gt _ hlong)
    exact ⟨exec_of_error (hrange 34), exec_of_error (hrange 34), exec_of_error (hrange 42)⟩
  · have hframe : checkIfid k s (checkRxLen 34 s .pass) = .error .shortFrame :=
      (checkIfid_of_lt _ hk).trans (checkRxLen_of_lt _ hshort (by omega))
    exact ⟨exec_of_error hframe, exec_of_error hframe⟩
  · exact exec_of_error ((checkIfid_of_lt _ hk).trans (checkRxLen_of_lt _ hshort (by omega)))

/-- Settles O41: the write of CMD on a busy engine is no acceptance. -/
theorem cmdWriteWhileBusySetsOvr : Obligations.CmdWriteWhileBusySetsOvr := by
  intro s w rest hz hbusy hi
  have hb : s.busy = true := busy_eq_true_iff.mpr hbusy
  exact step_write_of_lookup (r := .cmd) hz rfl (.inr rfl) hi (writeCmd_of_busy w hb)

/-- Settles O44: a completion sets DONE and keeps IRQ_EN; the STATUS write, acceptance and a reset each clear DONE. -/
theorem irqFollowsDoneAndEnable : Obligations.IrqFollowsDoneAndEnable := by
  refine ⟨fun s => irq_eq_true_iff, fun i s t ht => ?_, fun s => ⟨?_, fun w => ?_, ?_⟩⟩
  · obtain ⟨-, hen, -⟩ := commandsNeverWriteOperands i s t ht
    exact (irq_of_done (done_of_exec ht)).trans hen
  · have hclear : (writeStatus 0x00000002#32 s).status.done = false := by simp
    exact irq_of_not_done hclear
  · exact irq_of_not_done rfl
  · exact irq_of_not_done rfl

end Sys2Proof.Proofs
end

section
/-! SUPPORT. Resets, hazards and the empty trie: a reset as one step, its end at the sequencer's turn, the writes that
BUSY makes a hazard, and a lookup with no route stored (spec/70_reset_and_hazards.md R271–R274, R281, R282). -/

namespace Sys2Proof.Machine

open Sys2Proof.Safety

variable {s : State} {rest : List Input} {off : Nat} {w : Width} {v : Word}

/-! ### Reset -/

theorem writeCtrl_of_bit0_set (h : v.getLsbD 0 = true) (s : State) : writeCtrl v s = startReset s := by
  rw [writeCtrl, if_pos h]

/-- A reset started by the pin or by CTRL is one step, which leaves the reset state but for the model's own fields and
the level of the pin. -/
theorem step_startReset (hz : s.hazard = false) (hi : s.inputs = .rstAssert :: rest ∨ ∃ v : Word, v.getLsbD 0 = true ∧
      s.inputs = .access (.write (s.params.base + 0x004) .four v) :: rest) :
    ∃ level resp, step s = .next { startReset s with inputs := rest, rst := level, resp := resp } := by
  obtain hi | ⟨v, hv, hi⟩ := hi
  · exact ⟨true, s.resp, step_rstAssert hz hi⟩
  · exact ⟨s.rst, some .written,
      step_write_of_lookup (r := .ctrl) hz rfl (.inr rfl) hi (writeCtrl_of_bit0_set hv _)⟩

theorem engineTurn_of_rst_asserted (hr : s.resetting = true) (hrst : s.rst = true) : engineTurn s = .next s := by
  rw [engineTurn, if_pos hr, if_pos hrst]

theorem engineTurn_of_rst_deasserted (hr : s.resetting = true) (hrst : s.rst = false) :
    engineTurn s = .next (endReset s) := by rw [engineTurn, if_pos hr, if_neg (ne_true_of_eq_false hrst)]

/-- The reset state is what the end of a reset leaves (log entry 11). -/
theorem endReset_startReset_resetWith (p : Params) :
    endReset { startReset (State.resetWith p) with rst := false } = State.resetWith p := rfl

theorem inv_resetWith {p : Params} (h : p.legal) : Inv (State.resetWith p) := by
  have hstarted : Inv { startReset (State.resetWith p) with rst := false } := inv_startReset h false
  rw [← endReset_startReset_resetWith]
  exact hstarted.endReset rfl rfl

theorem specDefault_legal : Params.specDefault.legal := by decide

/-! ### Hazards -/

theorem hostWrite_hazardReg_of_busy {r : Reg} (w : Width) (v : Word) (hb : s.busy = true) (ho : off < 0x1000)
    (hr : regAt s.params off = some r) (hop : r.hazardWrite = true) :
    hostWrite off w v s = { s with hazard := true } := by
  simp [hostWrite, ho, hr, hb, hop]

theorem hostWrite_fmem_of_busy (w : Width) (v : Word) (hb : s.busy = true) (ho : 0x1000 ≤ off) :
    hostWrite off w v s = { s with hazard := true } := by
  rw [hostWrite, if_neg (Nat.not_lt.mpr ho), if_pos hb]

/-- A legal write of the window as one step. -/
theorem step_write (hz : s.hazard = false) (ho : off < 0x2000) (hl : legalAccess off w = true)
    (hi : s.inputs = .access (.write (s.params.base + off) w v) :: rest) :
    step s = .next { hostWrite off w v { s with inputs := rest } with resp := some .written } :=
  (step_access hz hi).trans (hostAccess_of_legal (s := { s with inputs := rest }) rfl ho hl)

/-- A legal write whose only effect is the hazard mark is a step that sets it. -/
theorem step_write_sets_hazard (hz : s.hazard = false) (ho : off < 0x2000) (hl : legalAccess off w = true)
    (hi : s.inputs = .access (.write (s.params.base + off) w v) :: rest)
    (hmark : hostWrite off w v { s with inputs := rest } = { s with inputs := rest, hazard := true }) :
    ∃ t, step s = .next t ∧ t.hazard = true := by
  refine ⟨_, step_write hz ho hl hi, ?_⟩
  rw [hmark]

/-- The registers whose write BUSY makes a hazard: ARG0–ARG3 and RX_LEN, and those of a present interface. -/
theorem exists_hazardReg (p : Params) (hoff : off ∈ [0x010, 0x014, 0x018, 0x01C, 0x030] ∨
      ∃ k < p.nif, k < 16 ∧ off ∈ [0x100 + 16 * k, 0x104 + 16 * k, 0x108 + 16 * k]) :
    ∃ r, regAt p off = some r ∧ r.hazardWrite = true ∧ off < 0x1000 ∧ off % 4 = 0 := by
  obtain hoff | ⟨k, hk, h16, hoff⟩ := hoff
  · have hrows : ∀ off ∈ [0x010, 0x014, 0x018, 0x01C, 0x030],
        ∃ r, regTable.lookup off = some r ∧ r.hazardWrite = true := by decide
    obtain ⟨r, hl, hop⟩ := hrows off hoff
    obtain ⟨hr, ho, h4⟩ := regAt_of_lookup p hl
    exact ⟨r, hr, hop, ho, h4⟩
  · obtain ⟨hip, hlo, hhi⟩ := regAt_iftab hk h16
    simp only [List.mem_cons, List.not_mem_nil, or_false] at hoff
    obtain rfl | rfl | rfl := hoff
    · exact ⟨_, hip, rfl, by omega, by omega⟩
    · exact ⟨_, hlo, rfl, by omega, by omega⟩
    · exact ⟨_, hhi, rfl, by omega, by omega⟩

/-! ### The empty trie -/

/-- A lone root without a route gives a lookup nothing to select: there is no child to go on to. -/
theorem lookupBest_singleton_empty (routes : List RouteEntry) (a : Word) : lookupBest [Node.empty] routes a = none := by
  have hroot : childOf [Node.empty] 0 (kbit a 0) = none := Node.child_empty _
  rw [lookupBest, lookupWalk_succ_of_none hroot]
  rfl

theorem lookupResult_of_lookupBest_eq_none (h : lookupBest s.nodes s.routes s.arg0 = none) :
    lookupResult s = lookupMiss s := by rw [lookupResult, h]

end Sys2Proof.Machine
end

section
/-! The statements about reset and hazards (spec/70_reset_and_hazards.md). -/

namespace Sys2Proof.Proofs

open Sys2Proof Sys2Proof.Machine Sys2Proof.Safety

/-- Settles O52: each of these writes is a legal one whose only effect is the mark, and a marked run stops. -/
theorem hazardWriteEndsTheRun : Obligations.HazardWriteEndsTheRun := by
  refine ⟨fun s w v off rest hz hb hoff hi => ?_, fun s => step_of_hazard⟩
  have hreg (hw : w = .four) (hoff : off ∈ [0x010, 0x014, 0x018, 0x01C, 0x030] ∨
      ∃ k < s.params.nif, k < 16 ∧ off ∈ [0x100 + 16 * k, 0x104 + 16 * k, 0x108 + 16 * k]) :
      ∃ t, step s = .next t ∧ t.hazard = true := by
    obtain ⟨r, hr, hop, ho, h4⟩ := exists_hazardReg s.params hoff
    exact step_write_sets_hazard hz (by omega) (legalAccess_iff.mpr (.inl ⟨ho, hw, h4⟩)) hi
      (hostWrite_hazardReg_of_busy w v hb ho hr hop)
  obtain ⟨hw, harg⟩ | ⟨hw, hif⟩ | ⟨hlow, hhigh, hal⟩ := hoff
  · exact hreg hw (.inl harg)
  · exact hreg hw (.inr hif)
  · exact step_write_sets_hazard hz hhigh (legalAccess_iff.mpr (.inr ⟨hlow, hal⟩)) hi
      (hostWrite_fmem_of_busy w v hb hlow)

/-- Settles O45: either trigger is a step to the reset state, with the reset in progress. -/
theorem resetPutsEveryRegisterAtItsResetValue : Obligations.ResetPutsEveryRegisterAtItsResetValue := by
  intro s rest hz hi
  obtain ⟨level, resp, hstep⟩ := step_startReset hz hi
  exact ⟨_, hstep, rfl, rfl, rfl, rfl, rfl, rfl, rfl, rfl, rfl, ⟨rfl, rfl, rfl, rfl⟩, rfl, rfl, rfl, rfl, rfl, rfl,
    fun _ => rfl, rfl, rfl, rfl⟩

/-- Settles O46: either way the step is the sequencer's turn, which ends a reset that the pin does not hold. -/
theorem resetEndsOnlyWithRstDeasserted : Obligations.ResetEndsOnlyWithRstDeasserted := by
  intro s hz hr
  refine ⟨fun hi => ⟨fun hrst => ?_, fun hrst => ?_⟩, fun rest hi => ⟨fun hrst => ?_, fun hrst => ?_⟩⟩
  · exact (step_nil hz hi).trans (engineTurn_of_rst_asserted hr hrst)
  · exact (step_nil hz hi).trans (engineTurn_of_rst_deasserted hr hrst)
  · exact (step_engine hz hi).trans (engineTurn_of_rst_asserted hr hrst)
  · exact (step_engine hz hi).trans (engineTurn_of_rst_deasserted hr hrst)

/-- Settles O47: the root alone, without a route, gives the walk nothing to select. -/
theorem lookupsMissOnTheEmptyTrie : Obligations.LookupsMissOnTheEmptyTrie := by
  intro s _ hnodes
  have hbest : lookupBest s.nodes s.routes s.arg0 = none := by
    rw [hnodes]
    exact lookupBest_singleton_empty _ _
  refine ⟨_, exec_lpmLookup s, ?_⟩
  rw [lookupResult_of_lookupBest_eq_none hbest]
  exact ⟨rfl, rfl, rfl, rfl, rfl, rfl⟩

/-- Settles O58: the reset state is the end of a reset, which meets the invariant while it is in progress. -/
theorem resetMeetsTheInvariant : Obligations.ResetMeetsTheInvariant :=
  ⟨inv_resetWith specDefault_legal, fun _ h => inv_resetWith h⟩

end Sys2Proof.Proofs
end
